-- ==== Sys2Proof/Word.lean ====
section
/-! DEFINITION. The word types of CLKCFG (spec/00_scope.md R6, R7): bit 0 is the least significant bit of every word;
every value is an unsigned integer. -/

namespace Sys2Proof

/-- One bit of a status field (spec/10_state.md R29). -/
abbrev Bit := BitVec 1

/-- A command word, `CMD_W` = 36 bits (spec/30_encoding.md R90). -/
abbrev CmdWord := BitVec 36

/-- A frequency, `FREQ_W` = 32 bits, an unsigned Hertz count (spec/00_scope.md R6). -/
abbrev Freq := BitVec 32

/-- A reading of the oscillator class, `OSC_CLASS_W` = 3 bits (spec/10_state.md R30). -/
abbrev OscClass := BitVec 3

/-- A peripheral identifier, 0 to 63 (spec/30_encoding.md R94). -/
abbrev PeriphId := BitVec 6

/-- A gate register or a mask written to one, `GATE_W` = 32 bits (spec/10_state.md R31). -/
abbrev GateWord := BitVec 32

end Sys2Proof
end

