-- ==== Sys2Proof/Config.lean ====
section
/-! DEFINITION. The parameters and constants of spec/00_scope.md R6, and the free values: what the platform or the clock
hardware decides and the spec leaves open. A free value is an opaque constant, so that no proof can see what it is. -/

namespace Sys2Proof

/-- A closed range of peripheral identifiers (spec/44_clock_gate.md R230). -/
structure IdRange where
  lo : PeriphId
  hi : PeriphId
deriving DecidableEq, Repr

/-- The ID ranges of the two gate instances, `GATE_LO` and `GATE_HI` (spec/00_scope.md R6). -/
structure GateRanges where
  low  : IdRange
  high : IdRange
deriving DecidableEq, Repr

/-- The OPEN parameters that a model takes as arguments (spec/93_implementation_defined.md part 2). They stand in the state
because the interface of the step has no other argument; no step changes them. DESIGN CHOICE (log 4), safe. -/
structure Params where
  /-- `OSC_TABLE`: the frequency of each class code, `none` for an unsupported code (spec/00_scope.md R6). -/
  oscTable  : Vector (Option Freq) 8
  /-- `WAIT_LIMIT`: `none` or the largest number of polls of one wait (spec/00_scope.md R6). -/
  waitLimit : Option Nat
  gates     : GateRanges
deriving DecidableEq, Repr

namespace Config

/-- `SLOW_HZ` (spec/00_scope.md R6). -/
def slowHz : Nat := 32768

/-- `MUL_MIN` (spec/00_scope.md R6). -/
def mulMin : Nat := 2

/-- `MUL_MAX` (spec/00_scope.md R6). -/
def mulMax : Nat := 2048

/-- `PLL_DIV_CONST`, the value of the 8-bit divider field (spec/00_scope.md R6, spec/10_state.md R28). -/
def pllDivConst : BitVec 8 := 2

/-- `CSS_SLOW` (spec/30_encoding.md R100); also the source code of Slow-Oscillator (R99). -/
def cssSlow : BitVec 2 := 0

/-- `CSS_MAIN` (spec/30_encoding.md R100); also the source code of Main-Oscillator (R99). -/
def cssMain : BitVec 2 := 1

/-- `CSS_PLL` (spec/30_encoding.md R100); also the source code of PLL-of-Main (R99). -/
def cssPll : BitVec 2 := 2

/-- The default `OSC_TABLE` (spec/00_scope.md R6, spec/30_encoding.md R103). -/
def defaultOscTable : Vector (Option Freq) 8 :=
  #v[some 4000000, some 8000000, some 12000000, none, none, none, none, none]

/-- `GATE_LO` = [0, 31] and `GATE_HI` = [32, 63] (spec/00_scope.md R6). -/
def defaultGates : GateRanges := { low := { lo := 0, hi := 31 }, high := { lo := 32, hi := 63 } }

/-- The parameters at the spec's defaults: `WAIT_LIMIT` = none, the original's behaviour
(spec/93_implementation_defined.md part 2). -/
def defaultParams : Params :=
  { oscTable := defaultOscTable, waitLimit := none, gates := defaultGates }

/-! Free answers of the clock hardware (spec/20_memory.md R71: "any value of the field's width, at every read"), applied to
the number of free reads made so far. DESIGN CHOICE (log 5), safe. -/

/-- The free answer to a read of `OSC_CLASS`. -/
opaque oscClassDraw : Nat → OscClass

/-- The free answer to a read of `PLL_LOCK`. -/
opaque pllLockDraw : Nat → Bit

/-- The free answer to a read of `MCK_RDY`. -/
opaque mckRdyDraw : Nat → Bit

/-! What the platform's own reset leaves in the hardware-side fields (spec/93_implementation_defined.md U4: "any value").
DESIGN CHOICE (log 3). -/

/-- `MCK_CTRL.CSS` before the block first writes it (spec/10_state.md R27). -/
opaque platformCss : BitVec 2

/-- `MCK_CTRL.PRES` before the block first writes it (spec/10_state.md R27). -/
opaque platformPres : BitVec 3

/-- `PLL_CTRL.MUL` before the block first writes it (spec/10_state.md R28). -/
opaque platformPllMul : BitVec 12

/-- `PLL_CTRL.DIV` before the block first writes it (spec/10_state.md R28). -/
opaque platformPllDiv : BitVec 8

/-- `GATE[0].ST` before any gate command (spec/10_state.md R31). -/
opaque platformGateSt0 : GateWord

/-- `GATE[1].ST` before any gate command (spec/10_state.md R31). -/
opaque platformGateSt1 : GateWord

end Config

end Sys2Proof
end

