-- ==== Sys2Proof/Syntax.lean ====
section
/-! DEFINITION. The thirteen commands of CLKCFG, one constructor per row of spec/opcode_table.json (spec/30_encoding.md
R96), the reasons a word is no command (R95, R97), and the outcome of the assembler (R105). -/

namespace Sys2Proof

/-- The gate instance that the `inst` bit of a gate command names (spec/30_encoding.md R94). -/
inductive GateInst where
  /-- `inst` = 0, the low ID range. -/
  | low
  /-- `inst` = 1, the high ID range. -/
  | high
deriving DecidableEq, Repr

/-- A command (spec/30_encoding.md R96). -/
inductive Instr where
  /-- CONSTRAIN (spec/40_builder.md R120). -/
  | constrain
  /-- WITH_TARGET_FREQUENCY (spec/40_builder.md R121). -/
  | withTargetFrequency (freq : Freq)
  /-- WITH_SOURCE (spec/40_builder.md R122). -/
  | withSource (src : BitVec 2)
  /-- FREEZE (spec/42_commit_sequencer.md R170). -/
  | freeze
  /-- GATE_ENABLE (spec/44_clock_gate.md R231). -/
  | gateEnable (inst : GateInst) (id : PeriphId)
  /-- GATE_DISABLE (spec/44_clock_gate.md R232). -/
  | gateDisable (inst : GateInst) (id : PeriphId)
  /-- GATE_STATUS (spec/44_clock_gate.md R233). -/
  | gateStatus (inst : GateInst) (id : PeriphId)
  /-- CLOCK_SOURCE (spec/43_record.md R210). -/
  | clockSource
  /-- SLOW_CLOCK_FREQ (spec/43_record.md R211). -/
  | slowClockFreq
  /-- MAIN_OSC_FREQ (spec/43_record.md R212). -/
  | mainOscFreq
  /-- PLL_RATIO (spec/43_record.md R213). -/
  | pllRatio
  /-- MASTER_CLOCK_FREQ (spec/43_record.md R214). -/
  | masterClockFreq
  /-- APPLIED_PRESCALER (spec/43_record.md R215). -/
  | appliedPrescaler
deriving DecidableEq, Repr

/-- Why a word is a reserved encoding, in the order of the decoder's checks (spec/30_encoding.md R95). -/
inductive Reject where
  /-- The opcode is 0x0, 0xE or 0xF (R97 a). -/
  | reservedOpcode
  /-- A must-be-zero bit of the format is 1 (R97 b, c, e). -/
  | mustBeZero
  /-- Format S with `src` = 3 (R97 d). -/
  | reservedSource
  /-- Format G with `id` outside the range of `inst` (R97 f). -/
  | idOutOfRange
deriving DecidableEq, Repr

/-- What the assembler makes of one line of text (spec/30_encoding.md R105). -/
inductive AsmLine where
  /-- A comment or an empty line: no word. -/
  | nothing
  /-- The word of a command. -/
  | word (w : CmdWord)
  /-- The assembler refuses the line. -/
  | refused
deriving DecidableEq, Repr

end Sys2Proof
end

