-- ==== Sys2Proof/WellFormed.lean ====
section
/-! DEFINITION. Which commands are well-formed: checks (3) and (4) of spec/30_encoding.md R95. Checks (1) and (2) are about
the word and stand in Decode.lean: no term of `Instr` has an undefined opcode or a must-be-zero bit. -/

namespace Sys2Proof

/-- The ID range of a gate instance (spec/44_clock_gate.md R230). -/
def GateRanges.range (g : GateRanges) : GateInst → IdRange
  | .low  => g.low
  | .high => g.high

/-- `id` lies in the closed range of instance `k` (spec/44_clock_gate.md R230). -/
def GateRanges.contains (g : GateRanges) (k : GateInst) (id : PeriphId) : Bool :=
  decide ((g.range k).lo ≤ id) && decide (id ≤ (g.range k).hi)

/-- A range is closed, not empty and of at most `GATE_W` = 32 identifiers
(spec/93_implementation_defined.md part 2). -/
def IdRange.wf (r : IdRange) : Bool :=
  decide (r.lo ≤ r.hi) && decide (r.hi.toNat < r.lo.toNat + 32)

/-- "two disjoint ID ranges of at most 32 IDs each" (spec/93_implementation_defined.md part 2). -/
def GateRanges.wf (g : GateRanges) : Bool :=
  g.low.wf && g.high.wf && (decide (g.low.hi < g.high.lo) || decide (g.high.hi < g.low.lo))

/-- Every supported class has a frequency above 0 (spec/00_scope.md R6; below 2^32 by its type). -/
def oscTablePositive (t : Vector (Option Freq) 8) : Bool :=
  t.toList.all fun o => decide (o ≠ some 0)

/-- `OSC_TABLE` "must contain 12,000,000 Hz" (spec/00_scope.md R6). -/
def listsTwelveMegahertz (t : Vector (Option Freq) 8) : Bool :=
  t.toList.any fun o => decide (o = some 12000000)

/-- The domain of the parameters: a table of positive frequencies with 12,000,000 Hz among them, a wait limit of at least
1, legal gate ranges (spec/00_scope.md R6, spec/93_implementation_defined.md part 2). -/
def Params.wf (p : Params) : Bool :=
  (oscTablePositive p.oscTable && listsTwelveMegahertz p.oscTable) && decide (p.waitLimit ≠ some 0) && p.gates.wf

/-- A command passes checks (3) and (4) of the decoder (spec/30_encoding.md R95). -/
def WellFormed (g : GateRanges) : Instr → Bool
  | .withSource src => decide (src ≠ 3)
  | .gateEnable inst id => g.contains inst id
  | .gateDisable inst id => g.contains inst id
  | .gateStatus inst id => g.contains inst id
  | .constrain => true
  | .withTargetFrequency _ => true
  | .freeze => true
  | .clockSource => true
  | .slowClockFreq => true
  | .mainOscFreq => true
  | .pllRatio => true
  | .masterClockFreq => true
  | .appliedPrescaler => true

end Sys2Proof
end

