-- ==== Sys2Proof/Decode.lean ====
section
/-! DEFINITION. The decoder and the encoder of the command word (spec/30_encoding.md R90 to R97), and the opcode map as
a table of match and mask words (R96). -/

namespace Sys2Proof

/-! ### Fields of a command word -/

/-- `op` = bits 35:32 (spec/30_encoding.md R90). -/
def opField (w : CmdWord) : BitVec 4 := w.extractLsb' 32 4

/-- `arg` = bits 31:0 (spec/30_encoding.md R90). -/
def argField (w : CmdWord) : BitVec 32 := w.extractLsb' 0 32

/-- The must-be-zero bits 31:2 of format S (spec/30_encoding.md R93). -/
def sourceZeroField (w : CmdWord) : BitVec 30 := w.extractLsb' 2 30

/-- `src` = bits 1:0 of format S (spec/30_encoding.md R93). -/
def srcField (w : CmdWord) : BitVec 2 := w.extractLsb' 0 2

/-- The must-be-zero bits 31:7 of format G (spec/30_encoding.md R94). -/
def gateZeroField (w : CmdWord) : BitVec 25 := w.extractLsb' 7 25

/-- `inst` = bit 6 of format G (spec/30_encoding.md R94). -/
def instField (w : CmdWord) : Bit := w.extractLsb' 6 1

/-- `id` = bits 5:0 of format G (spec/30_encoding.md R94). -/
def idField (w : CmdWord) : PeriphId := w.extractLsb' 0 6

/-- The instance that an `inst` bit selects: 0 the low range, 1 the high range (spec/30_encoding.md R94). -/
def instOfBit (b : Bit) : GateInst := if b = 0 then .low else .high

/-- The `inst` bit of an instance (spec/30_encoding.md R94). -/
def bitOfInst : GateInst → Bit
  | .low  => 0
  | .high => 1

/-! ### The decoder -/

/-- Format N: every operand bit must be 0 (spec/30_encoding.md R91). -/
def decodeN (w : CmdWord) (i : Instr) : Except Reject Instr :=
  if argField w = 0 then .ok i else .error .mustBeZero

/-- Format S: checks (2) and (3) of spec/30_encoding.md R95. -/
def decodeS (w : CmdWord) : Except Reject Instr :=
  if sourceZeroField w ≠ 0 then .error .mustBeZero
  else if srcField w = 3 then .error .reservedSource
  else .ok (.withSource (srcField w))

/-- Format G: checks (2) and (4) of spec/30_encoding.md R95. -/
def decodeG (g : GateRanges) (w : CmdWord) (mk : GateInst → PeriphId → Instr) : Except Reject Instr :=
  if gateZeroField w ≠ 0 then .error .mustBeZero
  else if g.contains (instOfBit (instField w)) (idField w) then .ok (mk (instOfBit (instField w)) (idField w))
  else .error .idOutOfRange

/-- The decoder, total on the 2^36 words, with the checks in the order of spec/30_encoding.md R95; the opcode map is
R96. -/
def decode (g : GateRanges) (w : CmdWord) : Except Reject Instr :=
  match opField w with
  | 0x1#4 => decodeN w .constrain
  | 0x2#4 => .ok (.withTargetFrequency (argField w))
  | 0x3#4 => decodeS w
  | 0x4#4 => decodeN w .freeze
  | 0x5#4 => decodeG g w .gateEnable
  | 0x6#4 => decodeG g w .gateDisable
  | 0x7#4 => decodeG g w .gateStatus
  | 0x8#4 => decodeN w .clockSource
  | 0x9#4 => decodeN w .slowClockFreq
  | 0xA#4 => decodeN w .mainOscFreq
  | 0xB#4 => decodeN w .pllRatio
  | 0xC#4 => decodeN w .masterClockFreq
  | 0xD#4 => decodeN w .appliedPrescaler
  | _ => .error .reservedOpcode

/-! ### The encoder -/

/-- The opcode of a command (spec/30_encoding.md R96). -/
def Instr.opcode : Instr → BitVec 4
  | .constrain => 0x1
  | .withTargetFrequency _ => 0x2
  | .withSource _ => 0x3
  | .freeze => 0x4
  | .gateEnable _ _ => 0x5
  | .gateDisable _ _ => 0x6
  | .gateStatus _ _ => 0x7
  | .clockSource => 0x8
  | .slowClockFreq => 0x9
  | .mainOscFreq => 0xA
  | .pllRatio => 0xB
  | .masterClockFreq => 0xC
  | .appliedPrescaler => 0xD

/-- The operand word of format G: 25 zeros, `inst`, `id` (spec/30_encoding.md R94). -/
def gateOperand (inst : GateInst) (id : PeriphId) : BitVec 32 :=
  ((0#25 ++ bitOfInst inst : BitVec 26) ++ id : BitVec 32)

/-- The operand word of a command (spec/30_encoding.md R91 to R94). -/
def Instr.operand : Instr → BitVec 32
  | .withTargetFrequency freq => freq
  | .withSource src => (0#30 ++ src : BitVec 32)
  | .gateEnable inst id => gateOperand inst id
  | .gateDisable inst id => gateOperand inst id
  | .gateStatus inst id => gateOperand inst id
  | .constrain => 0
  | .freeze => 0
  | .clockSource => 0
  | .slowClockFreq => 0
  | .mainOscFreq => 0
  | .pllRatio => 0
  | .masterClockFreq => 0
  | .appliedPrescaler => 0

/-- The command word of a command: opcode in bits 35:32, operand in bits 31:0 (spec/30_encoding.md R90). -/
def encode (i : Instr) : CmdWord := (i.opcode ++ i.operand : BitVec 36)

/-! ### The opcode map as a table -/

/-- The match and mask words of the opcode map, one row per opcode from 0x1 to 0xD (spec/30_encoding.md R96). -/
def opcodeMap : List (CmdWord × CmdWord) :=
  [ (0x100000000, 0xFFFFFFFFF),
    (0x200000000, 0xF00000000),
    (0x300000000, 0xFFFFFFFFC),
    (0x400000000, 0xFFFFFFFFF),
    (0x500000000, 0xFFFFFFF80),
    (0x600000000, 0xFFFFFFF80),
    (0x700000000, 0xFFFFFFF80),
    (0x800000000, 0xFFFFFFFFF),
    (0x900000000, 0xFFFFFFFFF),
    (0xA00000000, 0xFFFFFFFFF),
    (0xB00000000, 0xFFFFFFFFF),
    (0xC00000000, 0xFFFFFFFFF),
    (0xD00000000, 0xFFFFFFFFF) ]

/-- A word selects a row iff `(w AND mask) = match` (spec/30_encoding.md R96). -/
def selects (w : CmdWord) (row : CmdWord × CmdWord) : Bool := w &&& row.2 == row.1

/-- The row of the opcode map that a command belongs to (spec/30_encoding.md R96). -/
def Instr.row (i : Instr) : CmdWord × CmdWord :=
  opcodeMap.getD (i.opcode.toNat - 1) (0, 0)

/-! ### The host's entry -/

/-- The instruction that the decoder reads from the opcode table's word `w` of `nbits` bits, under the spec's default ID
ranges. A command word is 36 bits, delivered whole (spec/20_memory.md R63): a bit above bit 35 makes it no command word
(log 18). -/
def decodeTableWord (nbits w : Nat) : Option Instr :=
  if w % 2 ^ nbits < 2 ^ 36 then
    (decode Config.defaultGates (BitVec.ofNat 36 (w % 2 ^ nbits))).toOption
  else none

end Sys2Proof
end

