-- ==== Sys2Proof/Machine/State.lean ====
section
/-! DEFINITION. The state of CLKCFG (spec/10_state.md R20 to R33): block state, hardware-side state, the access trace, and
the model's own fields for what comes from outside (the parameters, the host's streams, the clock hardware's answers). -/

namespace Sys2Proof.Machine

/-- `seq`, the sequencer state (spec/10_state.md R21). Its codes are `Seq.code`; the codes 11 to 15 are unreachable and
have no constructor (spec/93_implementation_defined.md U8). -/
inductive Seq where
  | raw
  | building
  | sEval
  | sWritePll
  | sWaitLock
  | sWriteCss
  | sWaitRdy1
  | sWritePres
  | sWaitRdy2
  | frozen
  | fault
deriving DecidableEq, Repr

/-- The four faults of a FREEZE (spec/60_exceptions.md R251). -/
inductive FaultKind where
  | invalidFrequencyTarget
  | unsupportedOscillatorReading
  | hardwareTimeout
  | frequencyOverflow
deriving DecidableEq, Repr

/-- The status codes that are ever produced (spec/30_encoding.md R98). -/
inductive Status where
  | ok
  | errInvalidFrequencyTarget
  | errUnsupportedOscillatorReading
  | errHardwareTimeout
  | errFrequencyOverflow
  | refIllegalCommand
  | refNotConstrained
  | refAlreadyConstrained
  | refBuilderConsumed
  | refNoRecord
deriving DecidableEq, Repr

/-- A response: a 4-bit status (`Status.code`) and a 32-bit data word (spec/30_encoding.md R98). -/
structure Response where
  status : Status
  data   : BitVec 32
deriving DecidableEq, Repr

/-- A write access and the value it carries (spec/10_state.md R27, R28, R31). There is no combined `MCK_CTRL` write
(spec/20_memory.md R75). -/
inductive HwWrite where
  | css (v : BitVec 2)
  | pres (v : BitVec 3)
  | pllCtrl (mul : BitVec 12) (div : BitVec 8)
  | gateEn (k : GateInst) (mask : GateWord)
  | gateDis (k : GateInst) (mask : GateWord)
deriving DecidableEq, Repr

/-- A read access and the value it returned (spec/10_state.md R29 to R31). -/
inductive HwRead where
  | oscClass (v : OscClass)
  | pllLock (v : Bit)
  | mckRdy (v : Bit)
  | gateSt (k : GateInst) (v : GateWord)
deriving DecidableEq, Repr

/-- One event of the access trace, rd(F, v) or wr(F, v) (spec/10_state.md R32). -/
inductive HwEvent where
  | rd (r : HwRead)
  | wr (w : HwWrite)
deriving DecidableEq, Repr

/-- Encoder staging registers `enc.*` (spec/10_state.md R23). -/
structure EncRegs where
  main    : Freq
  css     : BitVec 2
  pres    : BitVec 3
  mul     : BitVec 12
  applied : BitVec 12
  mck     : Freq
  ratio   : BitVec 32
deriving DecidableEq, Repr

/-- Frozen-record registers `rec.*` (spec/10_state.md R24). -/
structure RecRegs where
  src     : BitVec 2
  slow    : Freq
  main    : Freq
  ratio   : BitVec 32
  mck     : Freq
  applied : BitVec 32
deriving DecidableEq, Repr

/-- The fields that the clock hardware keeps (spec/20_memory.md R71). -/
structure HwSide where
  css     : BitVec 2
  pres    : BitVec 3
  pllMul  : BitVec 12
  pllDiv  : BitVec 8
  gateSt0 : GateWord
  gateSt1 : GateWord
deriving DecidableEq, Repr

/-- The answers that the clock hardware will give to the coming reads of one field: first those of `sched`, then, if
`rest` is given, that value for ever; where neither is given the answer is a free value. DESIGN CHOICE (log 5), safe. -/
structure Feed (w : Nat) where
  sched : List (BitVec w)
  rest  : Option (BitVec w)
deriving DecidableEq, Repr

/-- The state of the machine. -/
structure State where
  /-- `seq` (spec/10_state.md R21). -/
  seq       : Seq
  /-- `b_src` (spec/10_state.md R22). -/
  bSrc      : BitVec 2
  /-- `b_tv` (spec/10_state.md R22). -/
  bTv       : Bool
  /-- `b_tgt` (spec/10_state.md R22). -/
  bTgt      : Freq
  /-- `enc.*` (spec/10_state.md R23). -/
  enc       : EncRegs
  /-- `rec.*` (spec/10_state.md R24). -/
  record    : RecRegs
  /-- `err` (spec/10_state.md R25). -/
  err       : BitVec 4
  /-- `fault_site` (spec/10_state.md R25). -/
  faultSite : BitVec 4
  /-- `progress` (spec/10_state.md R25). -/
  progress  : BitVec 3
  /-- `wait_cnt` (spec/10_state.md R26); stays 0 while `WAIT_LIMIT` = none (log 12). -/
  waitCnt   : Nat
  /-- The hardware-side fields (spec/10_state.md R27, R28, R31). -/
  hw        : HwSide
  /-- The access trace, oldest event first (spec/10_state.md R32). -/
  trace     : List HwEvent
  /-- The OPEN parameters (spec/00_scope.md R6); the model's own field (log 4). -/
  params    : Params
  /-- The words the host will present, the next one first; the model's own field (log 1). -/
  cmdIn     : List CmdWord
  /-- The reset input at the coming steps, the next one first; not asserted past the end; the model's own field (log 6). -/
  resetIn   : List Bool
  /-- The responses the host has received, oldest first; the model's own field (log 9). -/
  responses : List Response
  /-- Answers to reads of `OSC_CLASS`; the model's own field (log 5). -/
  oscIn     : Feed 3
  /-- Answers to reads of `PLL_LOCK`; the model's own field (log 5). -/
  lockIn    : Feed 1
  /-- Answers to reads of `MCK_RDY`; the model's own field (log 5). -/
  rdyIn     : Feed 1
  /-- How many reads of these three fields have been made: the argument of the free answers; the model's own field (log 5). -/
  draws     : Nat
deriving DecidableEq, Repr

/-- No step of this machine stops with a fault: the spec's faults are states (`Seq.fault`) with a response
(spec/60_exceptions.md R255), so this type has no constructor. -/
inductive Fault
deriving DecidableEq, Repr

/-- The spec's refusals are responses after which the block goes on (spec/60_exceptions.md R252), so no meaning answers
with one of these. -/
inductive Refusal where
  /-- Raised by an arm of `exec` that has no meaning yet; there is none. Safe. -/
  | notModelled (mnemonic : String)
deriving DecidableEq, Repr

/-- `enc.*` after reset: unspecified by the spec, 0 here (DESIGN CHOICE, log 2, unsafe). -/
def EncRegs.reset : EncRegs :=
  { main := 0, css := 0, pres := 0, mul := 0, applied := 0, mck := 0, ratio := 0 }

/-- `rec.*` after reset: unspecified by the spec, 0 here (DESIGN CHOICE, log 2, unsafe). -/
def RecRegs.reset : RecRegs :=
  { src := 0, slow := 0, main := 0, ratio := 0, mck := 0, applied := 0 }

/-- What the platform leaves in the hardware-side fields: free constants (log 3). -/
def HwSide.platform : HwSide :=
  { css := Config.platformCss, pres := Config.platformPres, pllMul := Config.platformPllMul,
    pllDiv := Config.platformPllDiv, gateSt0 := Config.platformGateSt0, gateSt1 := Config.platformGateSt1 }

/-- A feed with nothing scheduled: every answer is a free value. -/
def Feed.free {w : Nat} : Feed w := { sched := [], rest := none }

/-- The machine right after reset (spec/10_state.md R37, spec/70_reset_and_hazards.md R290), at the default parameters,
with nothing presented by the host. -/
def State.reset : State :=
  { seq := .raw, bSrc := 0, bTv := false, bTgt := 0, enc := EncRegs.reset, record := RecRegs.reset,
    err := 0, faultSite := 0, progress := 0, waitCnt := 0, hw := HwSide.platform, trace := [],
    params := Config.defaultParams, cmdIn := [], resetIn := [], responses := [],
    oscIn := Feed.free, lockIn := Feed.free, rdyIn := Feed.free, draws := 0 }

end Sys2Proof.Machine
end

