-- ==== Sys2Proof/Machine/Flags.lean ====
section
/-! DEFINITION. The codes of the state, status and fault enumerations, the flags a command writes (`err`, `fault_site`,
`progress`), and the status ports (spec/10_state.md R21, R25; spec/30_encoding.md R98, R108). -/

namespace Sys2Proof.Machine

/-- The code of a sequencer state (spec/10_state.md R21). -/
def Seq.code : Seq → BitVec 4
  | .raw => 0
  | .building => 1
  | .sEval => 2
  | .sWritePll => 3
  | .sWaitLock => 4
  | .sWriteCss => 5
  | .sWaitRdy1 => 6
  | .sWritePres => 7
  | .sWaitRdy2 => 8
  | .frozen => 9
  | .fault => 10

/-- The busy states 2 to 8 (spec/10_state.md R21). -/
def Seq.busy : Seq → Bool
  | .raw => false
  | .building => false
  | .sEval => true
  | .sWritePll => true
  | .sWaitLock => true
  | .sWriteCss => true
  | .sWaitRdy1 => true
  | .sWritePres => true
  | .sWaitRdy2 => true
  | .frozen => false
  | .fault => false

/-- The 4-bit code of a status (spec/30_encoding.md R98). -/
def Status.code : Status → BitVec 4
  | .ok => 0x0
  | .errInvalidFrequencyTarget => 0x1
  | .errUnsupportedOscillatorReading => 0x2
  | .errHardwareTimeout => 0x3
  | .errFrequencyOverflow => 0x4
  | .refIllegalCommand => 0x8
  | .refNotConstrained => 0x9
  | .refAlreadyConstrained => 0xA
  | .refBuilderConsumed => 0xB
  | .refNoRecord => 0xC

/-- The status that a fault responds with (spec/30_encoding.md R98). -/
def FaultKind.status : FaultKind → Status
  | .invalidFrequencyTarget => .errInvalidFrequencyTarget
  | .unsupportedOscillatorReading => .errUnsupportedOscillatorReading
  | .hardwareTimeout => .errHardwareTimeout
  | .frequencyOverflow => .errFrequencyOverflow

/-- The code of a fault, latched in `err` (spec/60_exceptions.md R251). -/
def FaultKind.code (f : FaultKind) : BitVec 4 := f.status.code

/-- `progress` bit 0: the PLL control register has been written (spec/10_state.md R25). -/
def progressPll : BitVec 3 := 0b001

/-- `progress` bit 1: the source-select field has been written (spec/10_state.md R25). -/
def progressCss : BitVec 3 := 0b010

/-- `progress` bit 2: the prescaler field has been written (spec/10_state.md R25). -/
def progressPres : BitVec 3 := 0b100

/-- Sets one bit of `progress`; the bits are never cleared but by reset (spec/10_state.md R25). -/
def setProgress (flag : BitVec 3) (s : State) : State := { s with progress := s.progress ||| flag }

/-- `cmd_ready`: 0 in the busy states and in no other (spec/10_state.md R21). -/
def State.cmdReady (s : State) : Bool := !s.seq.busy

/-- The status ports `seq`, `err`, `fault_site`, `progress` that the host may read at any time
(spec/00_scope.md R12, spec/30_encoding.md R108). -/
def statusPorts (s : State) : BitVec 4 × BitVec 4 × BitVec 4 × BitVec 3 :=
  (s.seq.code, s.err, s.faultSite, s.progress)

/-- The response of the step from `s` to `t`, if it responds. -/
def stepResponse (s t : State) : Option Response := (t.responses.drop s.responses.length).head?

/-- `rsp_valid` in the step from `s` to `t`: 1 exactly when that step responds (spec/00_scope.md R8,
spec/30_encoding.md R108; log 9). -/
def rspValid (s t : State) : Bool := (stepResponse s t).isSome

/-- `rsp_status` and `rsp_data` in the step from `s` to `t`, where `rsp_valid` is 1 (spec/30_encoding.md R98, R108). -/
def responsePort (s t : State) : Option (BitVec 4 × BitVec 32) :=
  (stepResponse s t).map fun r => (r.status.code, r.data)

end Sys2Proof.Machine
end

