-- ==== Sys2Proof/Machine/Operands.lean ====
section
/-! DEFINITION. The operands of the four formats as the meanings use them (spec/30_encoding.md R95, spec/44_clock_gate.md
R230). `freq`, `src` and `id` are taken as they stand; only the gate commands compute anything from an operand. Beside them the
packed write value of `PLL_CTRL` (R102). -/

namespace Sys2Proof.Machine

/-- The `PLL_CTRL` write value as one 20-bit number, `MUL[11:0]` above `DIV[7:0]` (spec/30_encoding.md R102). -/
def pllCtrlValue (mul : BitVec 12) (div : BitVec 8) : BitVec 20 := mul ++ div

/-- The 20-bit value that a write access to `PLL_CTRL` carries (spec/30_encoding.md R102). -/
def HwWrite.pllCtrlBits : HwWrite → Option (BitVec 20)
  | .pllCtrl mul div => some (pllCtrlValue mul div)
  | .css _ => none
  | .pres _ => none
  | .gateEn _ _ => none
  | .gateDis _ _ => none

/-- The reserved source code 3 (spec/30_encoding.md R99). -/
def reservedSource : BitVec 2 := 3

/-- `base(k)`, the lower end of the range of instance `k` (spec/30_encoding.md R94). -/
def gateBase (g : GateRanges) (k : GateInst) : PeriphId := (g.range k).lo

/-- The bit of the gate registers that a gate command acts on: `id - base(inst)` (spec/44_clock_gate.md R230). -/
def gateBit (g : GateRanges) (k : GateInst) (id : PeriphId) : Nat := id.toNat - (gateBase g k).toNat

/-- `mask(inst, id)`: one bit set, bit `id - base(inst)` (spec/44_clock_gate.md R230). -/
def gateMask (g : GateRanges) (k : GateInst) (id : PeriphId) : GateWord := 1#32 <<< gateBit g k id

/-- `zext_32(v[id - base(inst)])` (spec/44_clock_gate.md R233). -/
def gateStatusBit (g : GateRanges) (k : GateInst) (id : PeriphId) (v : GateWord) : BitVec 32 :=
  if v.getLsbD (gateBit g k id) then 1 else 0

end Sys2Proof.Machine
end

