-- ==== Sys2Proof/Machine/Ops.lean ====
section
/-! DEFINITION. The shared operations: hardware access (spec/20_memory.md R61, R71), responses and refusals
(spec/60_exceptions.md R252), fault entry (R255), the poll rule (spec/42_commit_sequencer.md R178), reset
(spec/70_reset_and_hazards.md R290, R291) and the command port (spec/20_memory.md R72). There is no return from a fault
to model: `FAULT` is left only by reset (spec/60_exceptions.md R256). -/

namespace Sys2Proof.Machine

/-! ### Hardware access -/

/-- `GATE[k].ST` (spec/10_state.md R31). -/
def HwSide.gateSt (h : HwSide) : GateInst → GateWord
  | .low  => h.gateSt0
  | .high => h.gateSt1

/-- `GATE[k].ST <- v` in the clock hardware. -/
def HwSide.setGateSt (h : HwSide) (k : GateInst) (v : GateWord) : HwSide :=
  match k with
  | .low  => { h with gateSt0 := v }
  | .high => { h with gateSt1 := v }

/-- What the clock hardware does on a write access (spec/20_memory.md R71, R62). -/
def HwSide.onWrite (h : HwSide) : HwWrite → HwSide
  | .css v => { h with css := v }
  | .pres v => { h with pres := v }
  | .pllCtrl mul div => { h with pllMul := mul, pllDiv := div }
  | .gateEn k mask => h.setGateSt k (h.gateSt k ||| mask)
  | .gateDis k mask => h.setGateSt k (h.gateSt k &&& ~~~mask)

/-- What `PLL_CTRL` holds, as the one 20-bit value of spec/30_encoding.md R102. -/
def HwSide.pllCtrl (h : HwSide) : BitVec 20 := pllCtrlValue h.pllMul h.pllDiv

/-- `HwWrite(F, v)`: one whole access, complete within the step (spec/20_memory.md R61). -/
def hwWrite (w : HwWrite) (s : State) : State :=
  { s with hw := s.hw.onWrite w, trace := s.trace ++ [.wr w] }

/-- The answer of a feed, `free` where nothing is scheduled (spec/20_memory.md R71). -/
def Feed.answer {w : Nat} (f : Feed w) (free : BitVec w) : BitVec w :=
  match f.sched with
  | v :: _ => v
  | [] => f.rest.getD free

/-- The feed after one read. -/
def Feed.tail {w : Nat} (f : Feed w) : Feed w := { f with sched := f.sched.tail }

/-- The value that the next read of `OSC_CLASS` returns: a free input of the step (spec/20_memory.md R71). -/
def oscClassAnswer (s : State) : OscClass := s.oscIn.answer (Config.oscClassDraw s.draws)

/-- The value that the next read of `PLL_LOCK` returns: a free input of the step (spec/20_memory.md R71). -/
def pllLockAnswer (s : State) : Bit := s.lockIn.answer (Config.pllLockDraw s.draws)

/-- The value that the next read of `MCK_RDY` returns: a free input of the step (spec/20_memory.md R71). -/
def mckRdyAnswer (s : State) : Bit := s.rdyIn.answer (Config.mckRdyDraw s.draws)

/-- `HwRead(OSC_CLASS)`; the value read is `oscClassAnswer` (spec/20_memory.md R61). -/
def hwReadOscClass (s : State) : State :=
  { s with oscIn := s.oscIn.tail, draws := s.draws + 1, trace := s.trace ++ [.rd (.oscClass (oscClassAnswer s))] }

/-- `HwRead(PLL_LOCK)`; the value read is `pllLockAnswer` (spec/20_memory.md R61). -/
def hwReadPllLock (s : State) : State :=
  { s with lockIn := s.lockIn.tail, draws := s.draws + 1, trace := s.trace ++ [.rd (.pllLock (pllLockAnswer s))] }

/-- `HwRead(MCK_RDY)`; the value read is `mckRdyAnswer` (spec/20_memory.md R61). -/
def hwReadMckRdy (s : State) : State :=
  { s with rdyIn := s.rdyIn.tail, draws := s.draws + 1, trace := s.trace ++ [.rd (.mckRdy (mckRdyAnswer s))] }

/-- `HwRead(GATE[k].ST)`; the value read is the environment's register (spec/20_memory.md R61). -/
def hwReadGateSt (k : GateInst) (s : State) : State :=
  { s with trace := s.trace ++ [.rd (.gateSt k (s.hw.gateSt k))] }

/-! ### Responses, refusals, faults -/

/-- `respond(status, data)` (spec/00_scope.md R8). -/
def respond (status : Status) (data : BitVec 32) (s : State) : State :=
  { s with responses := s.responses ++ [{ status := status, data := data }] }

/-- `refuse(code)` = `respond(code, 0)` and nothing else (spec/60_exceptions.md R252). -/
def refuse (code : Status) (s : State) : State := respond code 0 s

/-- Fault entry, `raise F(site)`, at the state that detects the fault (spec/60_exceptions.md R255). -/
def raiseFault (f : FaultKind) (site : BitVec 4) (s : State) : State :=
  respond f.status 0 { s with err := f.code, faultSite := site, seq := .fault }

/-- A word presented in a busy state is not taken: nothing happens (spec/42_commit_sequencer.md R180); in every other
state the command acts (log 8). -/
def whenTaken (s : State) (act : State → State) : State := if s.seq.busy then s else act s

/-! ### The poll rule -/

/-- What follows the read of a wait's status bit (spec/42_commit_sequencer.md R178): `site` is the wait state, `b` the
value read, `done` the action on a 1. -/
def afterPoll (site : Seq) (b : Bit) (done : State → State) (s : State) : State :=
  if b = 1#1 then done s
  else if s.params.waitLimit = some (s.waitCnt + 1) then raiseFault .hardwareTimeout site.code s
  else if s.params.waitLimit = none then s
  else { s with waitCnt := s.waitCnt + 1 }

/-! ### Reset -/

/-- A reset of the block: every block register at its value of spec/10_state.md R37; the hardware side and the trace stay
as they are (spec/70_reset_and_hazards.md R290, R291), and so does what is outside the block (log 10). -/
def blockReset (s : State) : State :=
  { s with
    seq := State.reset.seq, bSrc := State.reset.bSrc, bTv := State.reset.bTv, bTgt := State.reset.bTgt,
    enc := State.reset.enc, record := State.reset.record, err := State.reset.err,
    faultSite := State.reset.faultSite, progress := State.reset.progress, waitCnt := State.reset.waitCnt }

/-- The reset input at this step (log 6). -/
def resetAsserted (s : State) : Bool := s.resetIn.headD false

/-- The reset input is sampled once a step (log 6). -/
def sampleReset (s : State) : State := { s with resetIn := s.resetIn.tail }

/-! ### The command port -/

/-- The word on the command port, if the host presents one (spec/20_memory.md R72). -/
def presentedWord (s : State) : Option CmdWord := s.cmdIn.head?

/-- The presented word is taken, once (spec/20_memory.md R72). -/
def takeWord (s : State) : State := { s with cmdIn := s.cmdIn.tail }

/-- What the decoder makes of a taken word. -/
def fetchDecode (s : State) (w : CmdWord) : Except Reject Instr := decode s.params.gates w

/-- The host presents `w` as its next word and does not assert reset (log 1). -/
def presentWord (w : CmdWord) (s : State) : State :=
  { s with cmdIn := w :: s.cmdIn, resetIn := false :: s.resetIn }

end Sys2Proof.Machine
end

