-- ==== Sys2Proof/Machine/Builder.lean ====
section
/-! DEFINITION. The builder commands CONSTRAIN, WITH_TARGET_FREQUENCY, WITH_SOURCE (spec/40_builder.md). -/

namespace Sys2Proof.Machine

/-- The admission of the builder's commands (spec/60_exceptions.md R253): accepted only in `BUILDING`. -/
def inBuilding (s : State) (act : State → State) : State :=
  match s.seq with
  | .raw => refuse .refNotConstrained s
  | .building => act s
  | _ => refuse .refBuilderConsumed s

/-- CONSTRAIN (spec/40_builder.md R120). -/
def execConstrain (s : State) : Host.Outcome State Fault Refusal :=
  .next (whenTaken s fun s =>
    if s.seq = .raw then respond .ok 0 { s with bSrc := 0, bTv := false, seq := .building }
    else refuse .refAlreadyConstrained s)

/-- WITH_TARGET_FREQUENCY (spec/40_builder.md R121). -/
def execWithTargetFrequency (freq : Freq) (s : State) : Host.Outcome State Fault Refusal :=
  .next (whenTaken s fun s =>
    inBuilding s fun s => respond .ok 0 { s with bTgt := freq, bTv := true })

/-- WITH_SOURCE (spec/40_builder.md R122). The reserved code 3 is refused before the state is tested. -/
def execWithSource (src : BitVec 2) (s : State) : Host.Outcome State Fault Refusal :=
  .next (whenTaken s fun s =>
    if src = reservedSource then refuse .refIllegalCommand s
    else inBuilding s fun s => respond .ok 0 { s with bSrc := src })

end Sys2Proof.Machine
end

