-- ==== Sys2Proof/Machine/Encoder.lean ====
section
/-! DEFINITION. The configuration encoder `Encode` (spec/41_encoder.md R140 to R156): a pure function from the builder's
fields and the oscillator class reading to the register fields or a fault. Arithmetic is exact on natural numbers. -/

namespace Sys2Proof.Machine

/-- The result record of `Encode`; `mul` is present only on the PLL path (spec/41_encoder.md R140). -/
structure Fields where
  main    : Freq
  css     : BitVec 2
  pres    : BitVec 3
  mul     : Option (BitVec 12)
  applied : BitVec 12
  mck     : Freq
  ratio   : BitVec 32
deriving DecidableEq, Repr

/-- `OSC_TABLE[cls]`, `none` for a class outside its domain (spec/41_encoder.md R141). -/
def oscLookup (t : Vector (Option Freq) 8) (cls : OscClass) : Option Freq := t[cls.toNat]'cls.isLt

/-- The natural frequency of a source (spec/41_encoder.md R142). -/
def naturalFreq (src : BitVec 2) (main : Freq) : Nat :=
  if src = Config.cssSlow then Config.slowHz else main.toNat

/-- Target resolution (spec/41_encoder.md R143). -/
def resolveTarget (tv : Bool) (tgt : Freq) (natural : Nat) : Nat := if tv then tgt.toNat else natural

/-- `PRES_TABLE`: divisor to prescaler code and applied prescaler (spec/41_encoder.md R146); a table, not a formula. -/
def presTable (divisor : Nat) : BitVec 3 × BitVec 12 :=
  if divisor ≤ 1 then (0, 1)
  else if divisor = 2 then (1, 2)
  else if divisor = 3 then (7, 3)
  else if divisor = 4 then (2, 4)
  else if divisor ≤ 8 then (3, 8)
  else if divisor ≤ 16 then (4, 16)
  else if divisor ≤ 32 then (5, 32)
  else (6, 64)

/-- Decoding a prescaler code back to its prescaler (spec/41_encoder.md R147). -/
def presDecode (code : BitVec 3) : Nat := if code = 7 then 3 else 2 ^ code.toNat

/-- `round(target / main)`, ties up (spec/41_encoder.md R149). -/
def pllQuotient (target main : Nat) : Nat := (2 * target + main) / (2 * main)

/-- `clamp(v, lo, hi)` (spec/00_scope.md R8). -/
def clamp (v lo hi : Nat) : Nat := if v < lo then lo else if hi < v then hi else v

/-- The PLL multiplier (spec/41_encoder.md R150). -/
def pllMultiplier (target main : Nat) : Nat :=
  clamp (2 * pllQuotient target main) Config.mulMin Config.mulMax

/-- The PLL path (spec/41_encoder.md R149 to R153). The multiplier is at most 2048 and the product below 2^32 where they
are narrowed. -/
def encodePll (main : Freq) (target : Nat) : Except FaultKind Fields :=
  let mul := pllMultiplier target main.toNat
  let mck := main.toNat * mul
  if 2 ^ 32 ≤ mck then .error .frequencyOverflow
  else .ok {
    main := main, css := Config.cssPll, pres := 0, mul := some (BitVec.ofNat 12 mul),
    applied := BitVec.ofNat 12 mul, mck := BitVec.ofNat 32 mck, ratio := BitVec.ofNat 32 (mck / main.toNat) }

/-- The divisor path (spec/41_encoder.md R144 to R148, R153). The master clock is at most the source frequency, so it fits
32 bits. -/
def encodeDivisor (src : BitVec 2) (main : Freq) (natural target : Nat) : Except FaultKind Fields :=
  if target = 0 ∨ natural < target then .error .invalidFrequencyTarget
  else
    let row := presTable (natural / target)
    let mck := natural / row.2.toNat
    .ok {
      main := main, css := src, pres := row.1, mul := none,
      applied := row.2, mck := BitVec.ofNat 32 mck, ratio := BitVec.ofNat 32 (mck / main.toNat) }

/-- `Encode(src, tv, tgt, cls)` (spec/41_encoder.md R155), for the table `OSC_TABLE`. The source code 3 is never held in
`b_src`; R155's `else` takes it with the divisor path (log 13). -/
def encodeConfig (t : Vector (Option Freq) 8) (src : BitVec 2) (tv : Bool) (tgt : Freq) (cls : OscClass) :
    Except FaultKind Fields :=
  match oscLookup t cls with
  | none => .error .unsupportedOscillatorReading
  | some main =>
    let natural := naturalFreq src main
    let target := resolveTarget tv tgt natural
    if src = Config.cssPll then encodePll main target else encodeDivisor src main natural target

end Sys2Proof.Machine
end

