-- ==== Sys2Proof/Machine/Freeze.lean ====
section
/-! DEFINITION. FREEZE and the two-phase clock-commit sequencer (spec/42_commit_sequencer.md R170 to R184). -/

namespace Sys2Proof.Machine

/-- FREEZE, the admission step (spec/42_commit_sequencer.md R170): no response yet; the sequencer's steps follow. -/
def execFreeze (s : State) : Host.Outcome State Fault Refusal :=
  .next (whenTaken s fun s => inBuilding s fun s => { s with seq := .sEval })

/-- The encoder's result is staged in `enc.*`; `enc.mul` is written only on the PLL path
(spec/42_commit_sequencer.md R171). -/
def EncRegs.stage (e : EncRegs) (src : BitVec 2) (f : Fields) : EncRegs :=
  { main := f.main, css := f.css, pres := f.pres,
    mul := if src = Config.cssPll then f.mul.getD e.mul else e.mul,
    applied := f.applied, mck := f.mck, ratio := f.ratio }

/-- The record latched from `b_src` and `enc.*` (spec/42_commit_sequencer.md R177). -/
def latchRecord (s : State) : RecRegs :=
  { src := s.bSrc, slow := BitVec.ofNat 32 Config.slowHz, main := s.enc.main, ratio := s.enc.ratio,
    mck := s.enc.mck, applied := s.enc.applied.zeroExtend 32 }

/-- Step S_EVAL (spec/42_commit_sequencer.md R171). -/
def stepEval (s : State) : State :=
  match encodeConfig s.params.oscTable s.bSrc s.bTv s.bTgt (oscClassAnswer s) with
  | .error f => raiseFault f Seq.sEval.code (hwReadOscClass s)
  | .ok r =>
    { hwReadOscClass s with
      enc := s.enc.stage s.bSrc r
      seq := if s.bSrc = Config.cssPll then .sWritePll else .sWriteCss }

/-- Step S_WRITE_PLL (spec/42_commit_sequencer.md R172). -/
def stepWritePll (s : State) : State :=
  { setProgress progressPll (hwWrite (.pllCtrl s.enc.mul Config.pllDivConst) s) with waitCnt := 0, seq := .sWaitLock }

/-- Step S_WAIT_LOCK (spec/42_commit_sequencer.md R173). -/
def stepWaitLock (s : State) : State :=
  afterPoll .sWaitLock (pllLockAnswer s) (fun t => { t with seq := .sWriteCss }) (hwReadPllLock s)

/-- Step S_WRITE_CSS (spec/42_commit_sequencer.md R174). -/
def stepWriteCss (s : State) : State :=
  { setProgress progressCss (hwWrite (.css s.enc.css) s) with waitCnt := 0, seq := .sWaitRdy1 }

/-- Step S_WAIT_RDY1 (spec/42_commit_sequencer.md R175). -/
def stepWaitRdy1 (s : State) : State :=
  afterPoll .sWaitRdy1 (mckRdyAnswer s) (fun t => { t with seq := .sWritePres }) (hwReadMckRdy s)

/-- Step S_WRITE_PRES (spec/42_commit_sequencer.md R176). -/
def stepWritePres (s : State) : State :=
  { setProgress progressPres (hwWrite (.pres s.enc.pres) s) with waitCnt := 0, seq := .sWaitRdy2 }

/-- Step S_WAIT_RDY2 (spec/42_commit_sequencer.md R177): the completion action latches the record and responds. -/
def stepWaitRdy2 (s : State) : State :=
  afterPoll .sWaitRdy2 (mckRdyAnswer s)
    (fun t => respond .ok 0 { t with record := latchRecord t, seq := .frozen }) (hwReadMckRdy s)

/-- The next step of the sequencer (spec/10_state.md R21); nothing in a state that is not busy. -/
def sequencerStep (s : State) : State :=
  match s.seq with
  | .sEval => stepEval s
  | .sWritePll => stepWritePll s
  | .sWaitLock => stepWaitLock s
  | .sWriteCss => stepWriteCss s
  | .sWaitRdy1 => stepWaitRdy1 s
  | .sWritePres => stepWritePres s
  | .sWaitRdy2 => stepWaitRdy2 s
  | .raw => s
  | .building => s
  | .frozen => s
  | .fault => s

end Sys2Proof.Machine
end

