-- ==== Sys2Proof/Machine/Gate.lean ====
section
/-! DEFINITION. The Peripheral Clock Gate commands (spec/44_clock_gate.md R230 to R235). -/

namespace Sys2Proof.Machine

/-- The admission of the gate commands (spec/44_clock_gate.md R234). -/
def admitGate (k : GateInst) (id : PeriphId) (s : State) (act : State → State) : State :=
  if s.params.gates.contains k id = false then refuse .refIllegalCommand s
  else if s.seq = .raw then refuse .refNotConstrained s
  else act s

/-- GATE_ENABLE (spec/44_clock_gate.md R231). -/
def execGateEnable (k : GateInst) (id : PeriphId) (s : State) : Host.Outcome State Fault Refusal :=
  .next (whenTaken s fun s =>
    admitGate k id s fun s => respond .ok 0 (hwWrite (.gateEn k (gateMask s.params.gates k id)) s))

/-- GATE_DISABLE (spec/44_clock_gate.md R232). -/
def execGateDisable (k : GateInst) (id : PeriphId) (s : State) : Host.Outcome State Fault Refusal :=
  .next (whenTaken s fun s =>
    admitGate k id s fun s => respond .ok 0 (hwWrite (.gateDis k (gateMask s.params.gates k id)) s))

/-- GATE_STATUS (spec/44_clock_gate.md R233). -/
def execGateStatus (k : GateInst) (id : PeriphId) (s : State) : Host.Outcome State Fault Refusal :=
  .next (whenTaken s fun s =>
    admitGate k id s fun s =>
      respond .ok (gateStatusBit s.params.gates k id (s.hw.gateSt k)) (hwReadGateSt k s))

end Sys2Proof.Machine
end

