-- ==== Sys2Proof/Machine/Record.lean ====
section
/-! DEFINITION. The six accessors of the Frozen Clock Record (spec/43_record.md R210 to R217). -/

namespace Sys2Proof.Machine

/-- The admission of every accessor, and its answer `value` in `FROZEN` (spec/43_record.md R216). -/
def answerFrozen (value : RecRegs → BitVec 32) (s : State) : State :=
  match s.seq with
  | .raw => refuse .refNotConstrained s
  | .frozen => respond .ok (value s.record) s
  | _ => refuse .refNoRecord s

/-- CLOCK_SOURCE (spec/43_record.md R210). -/
def execClockSource (s : State) : Host.Outcome State Fault Refusal :=
  .next (whenTaken s (answerFrozen fun r => r.src.zeroExtend 32))

/-- SLOW_CLOCK_FREQ (spec/43_record.md R211). -/
def execSlowClockFreq (s : State) : Host.Outcome State Fault Refusal :=
  .next (whenTaken s (answerFrozen fun r => r.slow))

/-- MAIN_OSC_FREQ (spec/43_record.md R212). -/
def execMainOscFreq (s : State) : Host.Outcome State Fault Refusal :=
  .next (whenTaken s (answerFrozen fun r => r.main))

/-- PLL_RATIO (spec/43_record.md R213). -/
def execPllRatio (s : State) : Host.Outcome State Fault Refusal :=
  .next (whenTaken s (answerFrozen fun r => r.ratio))

/-- MASTER_CLOCK_FREQ (spec/43_record.md R214). -/
def execMasterClockFreq (s : State) : Host.Outcome State Fault Refusal :=
  .next (whenTaken s (answerFrozen fun r => r.mck))

/-- APPLIED_PRESCALER (spec/43_record.md R215). -/
def execAppliedPrescaler (s : State) : Host.Outcome State Fault Refusal :=
  .next (whenTaken s (answerFrozen fun r => r.applied))

end Sys2Proof.Machine
end

