-- ==== Sys2Proof/Machine/Dispatch.lean ====
section
/-! DEFINITION. One arm per command (spec/30_encoding.md R96). -/

namespace Sys2Proof.Machine

def exec (i : Instr) (s : State) : Host.Outcome State Fault Refusal :=
  match i with
  | .constrain => Sys2Proof.Machine.execConstrain s
  | .withTargetFrequency freq => Sys2Proof.Machine.execWithTargetFrequency freq s
  | .withSource src => Sys2Proof.Machine.execWithSource src s
  | .freeze => Sys2Proof.Machine.execFreeze s
  | .gateEnable inst id => Sys2Proof.Machine.execGateEnable inst id s
  | .gateDisable inst id => Sys2Proof.Machine.execGateDisable inst id s
  | .gateStatus inst id => Sys2Proof.Machine.execGateStatus inst id s
  | .clockSource => Sys2Proof.Machine.execClockSource s
  | .slowClockFreq => Sys2Proof.Machine.execSlowClockFreq s
  | .mainOscFreq => Sys2Proof.Machine.execMainOscFreq s
  | .pllRatio => Sys2Proof.Machine.execPllRatio s
  | .masterClockFreq => Sys2Proof.Machine.execMasterClockFreq s
  | .appliedPrescaler => Sys2Proof.Machine.execAppliedPrescaler s

end Sys2Proof.Machine
end

