-- ==== Sys2Proof/Machine/Step.lean ====
section
/-! DEFINITION. One step of the machine (spec/00_scope.md R10): a reset, a step of the sequencer, a command taken from
the host, or nothing. -/

namespace Sys2Proof.Machine

/-- One step. The reset input comes first (spec/70_reset_and_hazards.md R290); in a busy state the sequencer steps and no
word is taken (spec/42_commit_sequencer.md R180); otherwise the presented word is taken, decoded and executed, a reserved
word being refused (spec/30_encoding.md R97); with no word presented the block waits (log 7). -/
def step (s : State) : Host.Outcome State Fault Refusal :=
  if resetAsserted s then .next (blockReset (sampleReset s))
  else if s.seq.busy then .next (sequencerStep (sampleReset s))
  else
    match presentedWord s with
    | none => .next (sampleReset s)
    | some w =>
      match fetchDecode s w with
      | .ok i => exec i (takeWord (sampleReset s))
      | .error _ => .next (refuse .refIllegalCommand (takeWord (sampleReset s)))

/-- `s` with the command word `w` presented next and reset not asserted, so that the next step of a state that is not busy
takes and runs it (log 1, log 18). -/
def State.withFetchWord (s : State) (nbits w : Nat) : State :=
  presentWord (BitVec.ofNat 36 (w % 2 ^ nbits)) s

end Sys2Proof.Machine
end

