-- ==== Sys2Proof/Machine/Text.lean ====
section
/-! DEFINITION. The textual syntax of the commands: one command per line, lower-case name, operands separated by spaces
(spec/30_encoding.md R105). A line is a list of characters. What R105 leaves open of the lexical form is in log 17. -/

namespace Sys2Proof.Machine

/-- The value of a decimal digit. -/
def decDigit (c : Char) : Option Nat :=
  if 48 ≤ c.toNat ∧ c.toNat ≤ 57 then some (c.toNat - 48) else none

/-- The value of a hexadecimal digit, either case. -/
def hexDigit (c : Char) : Option Nat :=
  if 97 ≤ c.toNat ∧ c.toNat ≤ 102 then some (c.toNat - 87)
  else if 65 ≤ c.toNat ∧ c.toNat ≤ 70 then some (c.toNat - 55)
  else decDigit c

/-- Decimal digits, commas skipped (spec/30_encoding.md R105: "commas allowed"). -/
def readDec (acc : Nat) : List Char → Option Nat
  | [] => some acc
  | c :: cs =>
    if c = ',' then readDec acc cs
    else match decDigit c with
      | some d => readDec (10 * acc + d) cs
      | none => none

/-- Hexadecimal digits. -/
def readHex (acc : Nat) : List Char → Option Nat
  | [] => some acc
  | c :: cs =>
    match hexDigit c with
    | some d => readHex (16 * acc + d) cs
    | none => none

/-- A number: decimal with commas, or hexadecimal after `0x` (spec/30_encoding.md R105). -/
def readNumber : List Char → Option Nat
  | '0' :: 'x' :: c :: cs => readHex 0 (c :: cs)
  | c :: cs => if c = ',' then none else readDec 0 (c :: cs)
  | [] => none

/-- The pieces of a line between its spaces, empty ones among them. -/
def splitSpaces : List Char → List (List Char)
  | [] => [[]]
  | c :: cs =>
    match splitSpaces cs with
    | [] => [[c]]
    | t :: ts => if c = ' ' then [] :: t :: ts else (c :: t) :: ts

/-- The words of a line. -/
def tokens (line : List Char) : List (List Char) := (splitSpaces line).filter fun t => !t.isEmpty

/-- A command without operand (spec/30_encoding.md R105). -/
def parsePlain (name : List Char) : Option Instr :=
  if name = "constrain".toList then some .constrain
  else if name = "freeze".toList then some .freeze
  else if name = "clock_source".toList then some .clockSource
  else if name = "slow_clock_freq".toList then some .slowClockFreq
  else if name = "main_osc_freq".toList then some .mainOscFreq
  else if name = "pll_ratio".toList then some .pllRatio
  else if name = "master_clock_freq".toList then some .masterClockFreq
  else if name = "applied_prescaler".toList then some .appliedPrescaler
  else none

/-- The operand of `with_target_frequency`: 0 to 4294967295 (spec/30_encoding.md R105). -/
def parseFreq (t : List Char) : Option Freq :=
  match readNumber t with
  | some n => if n < 2 ^ 32 then some (BitVec.ofNat 32 n) else none
  | none => none

/-- The operand of `with_source`: `slow`, `main` or `pll` (spec/30_encoding.md R105). -/
def parseSource (t : List Char) : Option (BitVec 2) :=
  if t = "slow".toList then some Config.cssSlow
  else if t = "main".toList then some Config.cssMain
  else if t = "pll".toList then some Config.cssPll
  else none

/-- The operand `inst` of a gate command: 0 or 1 (spec/30_encoding.md R105). -/
def parseInst (t : List Char) : Option GateInst :=
  match readNumber t with
  | some 0 => some .low
  | some 1 => some .high
  | _ => none

/-- The operand `id` of a gate command, 0 to 63 (spec/30_encoding.md R94, R105). -/
def parseId (t : List Char) : Option PeriphId :=
  match readNumber t with
  | some n => if n < 64 then some (BitVec.ofNat 6 n) else none
  | none => none

/-- A command with one operand (spec/30_encoding.md R105). -/
def parseOne (name arg : List Char) : Option Instr :=
  if name = "with_target_frequency".toList then (parseFreq arg).map .withTargetFrequency
  else if name = "with_source".toList then (parseSource arg).map .withSource
  else none

/-- A gate command (spec/30_encoding.md R105). -/
def parseGate (name : List Char) (k : GateInst) (id : PeriphId) : Option Instr :=
  if name = "gate_enable".toList then some (.gateEnable k id)
  else if name = "gate_disable".toList then some (.gateDisable k id)
  else if name = "gate_status".toList then some (.gateStatus k id)
  else none

/-- The command that the words of a line spell, if any (spec/30_encoding.md R105). -/
def parseCommand : List (List Char) → Option Instr
  | [name] => parsePlain name
  | [name, arg] => parseOne name arg
  | [name, inst, id] =>
    match parseInst inst, parseId id with
    | some k, some i => parseGate name k i
    | _, _ => none
  | _ => none

/-- The assembler, one line: a comment, the word of a well-formed command, or a refusal, "so that it never emits a
reserved encoding" (spec/30_encoding.md R105). -/
def assembleLine (g : GateRanges) (line : List Char) : AsmLine :=
  if line.head? = some '#' then .nothing
  else
    match tokens line with
    | [] => .nothing
    | ts =>
      match parseCommand ts with
      | some i => if WellFormed g i then .word (encode i) else .refused
      | none => .refused

/-- The words of a program text, line by line; `none` if the assembler refuses a line (spec/30_encoding.md R105). -/
def assemble (g : GateRanges) : List (List Char) → Option (List CmdWord)
  | [] => some []
  | line :: rest =>
    match assembleLine g line, assemble g rest with
    | .nothing, some ws => some ws
    | .word w, some ws => some (w :: ws)
    | _, _ => none

end Sys2Proof.Machine
end

