-- ==== Sys2Proof/Safety.lean ====
section
/-! DEFINITION. What counts as a safe run of CLKCFG, in the terms the statements use: the reserved words, the starting
states, runs, the invariant of the commit sequence, and the access sequences of a FREEZE. -/

namespace Sys2Proof.Machine

/-! ### Reserved words, spelled in numbers -/

/-- The opcode of a word as a number. -/
def opNat (w : CmdWord) : Nat := w.toNat / 2 ^ 32

/-- The operand of a word as a number. -/
def argNat (w : CmdWord) : Nat := w.toNat % 2 ^ 32

/-- The opcodes of format N (spec/30_encoding.md R96). -/
def plainOpcodes : List Nat := [1, 4, 8, 9, 10, 11, 12, 13]

/-- The opcodes of format G (spec/30_encoding.md R96). -/
def gateOpcodes : List Nat := [5, 6, 7]

/-- `id` lies in the closed range of `inst`, in numbers (spec/30_encoding.md R94). -/
abbrev gateIdInRange (g : GateRanges) (inst id : Nat) : Prop :=
  (inst = 0 → g.low.lo.toNat ≤ id ∧ id ≤ g.low.hi.toNat) ∧ (inst ≠ 0 → g.high.lo.toNat ≤ id ∧ id ≤ g.high.hi.toNat)

/-- The reserved words (a) to (f) of spec/30_encoding.md R97. -/
abbrev ReservedWord (g : GateRanges) (w : CmdWord) : Prop :=
  opNat w ∈ [0, 14, 15]
  ∨ (opNat w ∈ plainOpcodes ∧ argNat w ≠ 0)
  ∨ (opNat w = 3 ∧ argNat w / 4 ≠ 0)
  ∨ (opNat w = 3 ∧ argNat w % 4 = 3)
  ∨ (opNat w ∈ gateOpcodes ∧ argNat w / 128 ≠ 0)
  ∨ (opNat w ∈ gateOpcodes ∧ ¬ gateIdInRange g (argNat w / 64 % 2) (argNat w % 64))

/-! ### Runs -/

/-- The reset input is asserted at no scheduled step. -/
abbrev NoReset (s : State) : Prop := ∀ b ∈ s.resetIn, b = false

/-- `n` steps of the machine from `s` lead to `t`. -/
def RunsTo (n : Nat) (s t : State) : Prop := Host.Core.run Sys2Proof.core n s = .next t

/-- A machine right after reset, with any legal parameters, any contents of the hardware-side fields
(spec/93_implementation_defined.md U4) and anything to come from the host and the clock hardware. -/
def PowerOn (s : State) : Prop :=
  s.params.wf = true ∧
  s = { State.reset with
        hw := s.hw, params := s.params, cmdIn := s.cmdIn, resetIn := s.resetIn,
        oscIn := s.oscIn, lockIn := s.lockIn, rdyIn := s.rdyIn, draws := s.draws }

/-- A state that a run from a starting state reaches. -/
def Reachable (s : State) : Prop := ∃ s0 n, PowerOn s0 ∧ RunsTo n s0 s

/-- `s` after `k` further reads. -/
def afterReads (read : State → State) : Nat → State → State
  | 0, s => s
  | k + 1, s => afterReads read k (read s)

/-- The premise `HW_EVENTUALLY_READY`, "that every wait's bit is eventually observed 1" (spec/00_scope.md R6): in every wait
that a run from `s` reaches, one of the coming answers of the wait's bit is 1. No rule assumes it (log 24). -/
def HwEventuallyReady (s : State) : Prop :=
  ∀ n t, RunsTo n s t →
    (t.seq = .sWaitLock → ∃ k, pllLockAnswer (afterReads hwReadPllLock k t) = 1#1) ∧
    (t.seq = .sWaitRdy1 ∨ t.seq = .sWaitRdy2 → ∃ k, mckRdyAnswer (afterReads hwReadMckRdy k t) = 1#1)

/-! ### What the block has written -/

/-- The last value written to `MCK_CTRL.CSS`. -/
def lastCss (t : List HwEvent) : Option (BitVec 2) :=
  t.reverse.findSome? fun
    | .wr (.css v) => some v
    | _ => none

/-- The last value written to `MCK_CTRL.PRES`. -/
def lastPres (t : List HwEvent) : Option (BitVec 3) :=
  t.reverse.findSome? fun
    | .wr (.pres v) => some v
    | _ => none

/-- The last value written to `PLL_CTRL`, multiplier and divider. -/
def lastPllCtrl (t : List HwEvent) : Option (BitVec 12 × BitVec 8) :=
  t.reverse.findSome? fun
    | .wr (.pllCtrl m d) => some (m, d)
    | _ => none

/-- The legal values of each write access (spec/10_state.md R27, R28; spec/44_clock_gate.md R230). -/
def HwWrite.legal : HwWrite → Bool
  | .css v => decide (v ≠ 3)
  | .pres _ => true
  | .pllCtrl m d => decide (2 ≤ m.toNat) && decide (m.toNat ≤ 2048) && decide (m.toNat % 2 = 0) && decide (d = 2)
  | .gateEn _ mask => (List.range 32).any fun b => decide (mask = 1#32 <<< b)
  | .gateDis _ mask => (List.range 32).any fun b => decide (mask = 1#32 <<< b)

/-! ### The invariant of the commit sequence -/

/-- The `progress` that goes with a sequencer state other than `FAULT`, for source `src`
(spec/42_commit_sequencer.md R172, R174, R176, R183). -/
def commitProgress (src : BitVec 2) : Seq → BitVec 3
  | .raw => 0b000
  | .building => 0b000
  | .sEval => 0b000
  | .sWritePll => 0b000
  | .sWaitLock => 0b001
  | .sWriteCss => if src = Config.cssPll then 0b001 else 0b000
  | .sWaitRdy1 => if src = Config.cssPll then 0b011 else 0b010
  | .sWritePres => if src = Config.cssPll then 0b011 else 0b010
  | .sWaitRdy2 => if src = Config.cssPll then 0b111 else 0b110
  | .frozen => if src = Config.cssPll then 0b111 else 0b110
  | .fault => 0b000

/-- What a fault leaves in `err`, `fault_site` and `progress` (spec/60_exceptions.md R251,
spec/42_commit_sequencer.md R183). -/
def FaultRecord (s : State) : Prop :=
  ((s.err = 1 ∨ s.err = 2 ∨ s.err = 4) ∧ s.faultSite = 2 ∧ s.progress = 0b000)
  ∨ (s.err = 3 ∧ s.faultSite = 4 ∧ s.progress = 0b001 ∧ s.bSrc = Config.cssPll)
  ∨ (s.err = 3 ∧ s.faultSite = 6 ∧ s.progress = commitProgress s.bSrc .sWaitRdy1)
  ∨ (s.err = 3 ∧ s.faultSite = 8 ∧ s.progress = commitProgress s.bSrc .sWaitRdy2)

/-- S_EVAL has staged the encoder's result: a state after it, or a fault that a wait raised. -/
def Evaluated (s : State) : Prop :=
  (s.seq ≠ .raw ∧ s.seq ≠ .building ∧ s.seq ≠ .sEval ∧ s.seq ≠ .fault) ∨ (s.seq = .fault ∧ s.err = 3)

/-- `enc.*` holds what `Encode` gives the builder's fields for some class reading
(spec/42_commit_sequencer.md R171). -/
def Staged (s : State) : Prop :=
  ∃ cls f, encodeConfig s.params.oscTable s.bSrc s.bTv s.bTgt cls = .ok f ∧ s.enc.stage s.bSrc f = s.enc

/-- The invariant of every reachable state. -/
structure Coherent (s : State) : Prop where
  /-- The parameters are in their domain (spec/00_scope.md R6). -/
  params : s.params.wf = true
  /-- The source code 3 is never held (spec/30_encoding.md R99). -/
  source : s.bSrc ≠ 3
  /-- "`err != 0` if and only if `seq = FAULT`" (spec/10_state.md R25). -/
  errIff : s.err ≠ 0 ↔ s.seq = .fault
  /-- `fault_site` is written only by a fault (spec/10_state.md R25). -/
  siteUnset : s.seq ≠ .fault → s.faultSite = 0
  /-- A fault is recorded as spec/60_exceptions.md R251 says. -/
  faultRecord : s.seq = .fault → FaultRecord s
  /-- `progress` tells which commit writes were made (spec/10_state.md R25). -/
  progress : s.seq ≠ .fault → s.progress = commitProgress s.bSrc s.seq
  /-- The PLL steps belong to the PLL source (spec/42_commit_sequencer.md R172, R173). -/
  pllOnly : s.seq = .sWritePll ∨ s.seq = .sWaitLock → s.bSrc = Config.cssPll
  /-- `wait_cnt` stays below the limit (spec/10_state.md R26). -/
  waitBound : ∀ n, s.params.waitLimit = some n → s.waitCnt < n
  /-- Without a limit there is no counter (spec/10_state.md R26). -/
  waitUnused : s.params.waitLimit = none → s.waitCnt = 0
  /-- The staged values are the encoder's (spec/42_commit_sequencer.md R171). -/
  staged : Evaluated s → Staged s
  /-- The hardware holds the PLL control value that was staged (spec/42_commit_sequencer.md R172). -/
  pllWritten : s.progress.getLsbD 0 = true →
    s.hw.pllMul = s.enc.mul ∧ s.hw.pllDiv = 2 ∧ lastPllCtrl s.trace = some (s.enc.mul, 2)
  /-- The hardware holds the source-select code that was staged (spec/42_commit_sequencer.md R174). -/
  cssWritten : s.progress.getLsbD 1 = true →
    s.hw.css = s.enc.css ∧ lastCss s.trace = some s.enc.css
  /-- The hardware holds the prescaler code that was staged (spec/42_commit_sequencer.md R176). -/
  presWritten : s.progress.getLsbD 2 = true →
    s.hw.pres = s.enc.pres ∧ lastPres s.trace = some s.enc.pres
  /-- The record is the one latched at completion (spec/42_commit_sequencer.md R177). -/
  latched : s.seq = .frozen → s.record = latchRecord s
  /-- Only legal values are written (spec/10_state.md R27, R28). -/
  writes : ∀ w, HwEvent.wr w ∈ s.trace → w.legal = true

/-! ### Transitions of `seq` -/

/-- The transitions of spec/42_commit_sequencer.md R181, as pairs of states. -/
def transition : Seq → Seq → Bool
  | .raw, t => t == .raw || t == .building
  | .building, t => t == .building || t == .sEval
  | .sEval, t => t == .fault || t == .sWritePll || t == .sWriteCss
  | .sWritePll, t => t == .sWaitLock
  | .sWaitLock, t => t == .sWriteCss || t == .sWaitLock || t == .fault
  | .sWriteCss, t => t == .sWaitRdy1
  | .sWaitRdy1, t => t == .sWritePres || t == .sWaitRdy1 || t == .fault
  | .sWritePres, t => t == .sWaitRdy2
  | .sWaitRdy2, t => t == .frozen || t == .sWaitRdy2 || t == .fault
  | .frozen, t => t == .frozen
  | .fault, t => t == .fault

/-! ### The access sequences of a FREEZE -/

/-- `k` polls of `MCK_RDY` that read 0 and one that reads 1. -/
def readyPolls (k : Nat) : List HwEvent :=
  List.replicate k (.rd (.mckRdy 0)) ++ [.rd (.mckRdy 1)]

/-- `k` polls of `PLL_LOCK` that read 0 and one that reads 1. -/
def lockPolls (k : Nat) : List HwEvent :=
  List.replicate k (.rd (.pllLock 0)) ++ [.rd (.pllLock 1)]

/-- The two phases: `CSS`, its polls, `PRES`, its polls (spec/42_commit_sequencer.md R179). -/
def commitTrace (css : BitVec 2) (pres : BitVec 3) (k2 k3 : Nat) : List HwEvent :=
  .wr (.css css) :: readyPolls k2 ++ .wr (.pres pres) :: readyPolls k3

/-- The trace that a FREEZE on the slow or main source appends (spec/42_commit_sequencer.md R179). -/
def divisorTrace (cls : OscClass) (css : BitVec 2) (pres : BitVec 3) (k2 k3 : Nat) : List HwEvent :=
  .rd (.oscClass cls) :: commitTrace css pres k2 k3

/-- The trace that a FREEZE on the PLL source appends (spec/42_commit_sequencer.md R179). -/
def pllTrace (cls : OscClass) (mul : BitVec 12) (k1 k2 k3 : Nat) : List HwEvent :=
  .rd (.oscClass cls) :: .wr (.pllCtrl mul 2) :: lockPolls k1 ++ commitTrace Config.cssPll 0 k2 k3

end Sys2Proof.Machine
end

