-- ==== Sys2Proof/Certificates/Slice0/Obligations.lean ====
section
/-! DEFINITION. The statements about CLKCFG for the provers. Each docstring names the rule of spec/ it formalises or rests
on. -/

open Sys2Proof Sys2Proof.Machine

/-! ### Encoding -/

/-- Decode and encode agree, for every command with every operand its format admits and any ID ranges
(spec/30_encoding.md R90 to R96). -/
def Obligations.DecodeOfEncodeIsTheCommand : Prop :=
  ∀ (g : GateRanges) (i : Instr), WellFormed g i = true → decode g (encode i) = .ok i

/-- A word that decodes is the encoding of a well-formed command: no second word spells it (spec/30_encoding.md R95). -/
def Obligations.DecodedWordIsItsEncoding : Prop :=
  ∀ (g : GateRanges) (w : CmdWord) (i : Instr), decode g w = .ok i → WellFormed g i = true ∧ encode i = w

/-- Decoding is total and unambiguous (spec/30_encoding.md R107): a word selects exactly one row and decodes to a command
of it, or it is one of the reserved words of R97; no word selects two rows. -/
def Obligations.EveryWordIsOneCommandOrReserved : Prop :=
  ∀ (g : GateRanges) (w : CmdWord),
    ((¬ ReservedWord g w ∧ ∃ i, decode g w = .ok i ∧ opcodeMap.filter (selects w) = [i.row]) ∨
      (ReservedWord g w ∧ ∃ e, decode g w = .error e)) ∧
    (opcodeMap.filter (selects w)).length ≤ 1

/-- The words of spec/95_test_vectors.md V-DEC1 to V-DEC6, and one word of every other row. -/
def Obligations.SpecWordsDecode : Prop :=
  decode Config.defaultGates 0x200B71B00 = .ok (.withTargetFrequency 12000000) ∧
  decode Config.defaultGates 0x300000002 = .ok (.withSource 2) ∧
  decode Config.defaultGates 0x600000064 = .ok (.gateDisable .high 36) ∧
  decode Config.defaultGates 0x70000007F = .ok (.gateStatus .high 63) ∧
  decode Config.defaultGates 0xD00000000 = .ok .appliedPrescaler ∧
  decode Config.defaultGates 0x2FFFFFFFF = .ok (.withTargetFrequency 4294967295) ∧
  decode Config.defaultGates 0x100000000 = .ok .constrain ∧
  decode Config.defaultGates 0x400000000 = .ok .freeze ∧
  decode Config.defaultGates 0x50000000B = .ok (.gateEnable .low 11) ∧
  decode Config.defaultGates 0x800000000 = .ok .clockSource ∧
  decode Config.defaultGates 0x900000000 = .ok .slowClockFreq ∧
  decode Config.defaultGates 0xA00000000 = .ok .mainOscFreq ∧
  decode Config.defaultGates 0xB00000000 = .ok .pllRatio ∧
  decode Config.defaultGates 0xC00000000 = .ok .masterClockFreq

/-- The assembler never emits a reserved encoding (spec/30_encoding.md R105). -/
def Obligations.AssemblerEmitsOnlyCommands : Prop :=
  ∀ (g : GateRanges) (line : List Char) (w : CmdWord),
    assembleLine g line = .word w → ¬ ReservedWord g w ∧ ∃ i, WellFormed g i = true ∧ decode g w = .ok i

/-! ### The step -/

/-- A step of a block that is ready takes the presented word, once, and is the decoded command's effect on the state
without that word (spec/20_memory.md R72; the reset input's schedule moves on by one step, log 6). -/
def Obligations.StepRunsThePresentedCommand : Prop :=
  ∀ (s : State) (w : CmdWord) (rest : List CmdWord) (i : Instr),
    resetAsserted s = false → s.seq.busy = false → s.cmdIn = w :: rest → decode s.params.gates w = .ok i →
    step s = exec i { s with cmdIn := rest, resetIn := s.resetIn.tail }

/-- The reserved words (a) to (f) of spec/30_encoding.md R97: refused with status 0x8 and no other change in every state
that takes a word; not taken in a busy state. -/
def Obligations.ReservedWordsAreRefused : Prop :=
  ∀ (s : State) (w : CmdWord) (rest : List CmdWord),
    resetAsserted s = false → s.cmdIn = w :: rest → ReservedWord s.params.gates w →
    (s.seq.busy = false →
      step s = .next { s with
        cmdIn := rest, resetIn := s.resetIn.tail,
        responses := s.responses ++ [⟨.refIllegalCommand, 0⟩] }) ∧
    (s.seq.busy = true → ∀ t, step s = .next t → t.cmdIn = w :: rest) ∧
    Status.refIllegalCommand.code = 0x8

/-- In a busy state `cmd_ready` = 0 and a presented word is not taken, not refused and not lost; the response that ends the
FREEZE is the only one (spec/42_commit_sequencer.md R180). -/
def Obligations.BusyBlockTakesNoCommand : Prop :=
  ∀ (s t : State),
    resetAsserted s = false → s.seq.busy = true → step s = .next t →
    s.cmdReady = false ∧ t.cmdIn = s.cmdIn ∧
    (t.seq.busy = true → t.responses = s.responses) ∧
    (t.seq.busy = false → ∃ r, t.responses = s.responses ++ [r] ∧ (r = ⟨.ok, 0⟩ ∨ ∃ f : FaultKind, r = ⟨f.status, 0⟩)) ∧
    ∀ i, exec i s = .next s

/-- Every step answers a next state: the spec's faults, refusals and hangs are states and responses
(spec/60_exceptions.md R250). -/
def Obligations.EveryStepAnswersANextState : Prop :=
  (∀ s : State, ∃ t, step s = .next t) ∧ ∀ (i : Instr) (s : State), ∃ t, exec i s = .next t

/-- A step makes at most one hardware access, and the clock hardware's fields change by write accesses only, each changing
only what it names (spec/00_scope.md R10, spec/20_memory.md R62, R71). -/
def Obligations.ClockHardwareFollowsTheTrace : Prop :=
  ∀ (s t : State), step s = .next t →
    (t.trace = s.trace ∧ t.hw = s.hw) ∨
    (∃ r, t.trace = s.trace ++ [.rd r] ∧ t.hw = s.hw) ∨
    (∃ v, t.trace = s.trace ++ [.wr (.css v)] ∧ t.hw = { s.hw with css := v }) ∨
    (∃ v, t.trace = s.trace ++ [.wr (.pres v)] ∧ t.hw = { s.hw with pres := v }) ∨
    (∃ m d, t.trace = s.trace ++ [.wr (.pllCtrl m d)] ∧ t.hw = { s.hw with pllMul := m, pllDiv := d }) ∨
    (∃ m, t.trace = s.trace ++ [.wr (.gateEn .low m)] ∧ t.hw = { s.hw with gateSt0 := s.hw.gateSt0 ||| m }) ∨
    (∃ m, t.trace = s.trace ++ [.wr (.gateEn .high m)] ∧ t.hw = { s.hw with gateSt1 := s.hw.gateSt1 ||| m }) ∨
    (∃ m, t.trace = s.trace ++ [.wr (.gateDis .low m)] ∧ t.hw = { s.hw with gateSt0 := s.hw.gateSt0 &&& ~~~m }) ∨
    (∃ m, t.trace = s.trace ++ [.wr (.gateDis .high m)] ∧ t.hw = { s.hw with gateSt1 := s.hw.gateSt1 &&& ~~~m })

/-- The parameters are fixed for the life of a model instance (spec/10_state.md R33), over any run. -/
def Obligations.ParametersNeverChange : Prop :=
  ∀ (n : Nat) (s t : State), RunsTo n s t → t.params = s.params

/-! ### Builder commands -/

/-- CONSTRAIN (spec/40_builder.md R120): its effect in `RAW`, its refusal elsewhere. -/
def Obligations.ConstrainYieldsTheEmptyBuilderOnce : Prop :=
  ∀ s : State,
    (s.seq = .raw → exec .constrain s =
      .next { s with bSrc := 0, bTv := false, seq := .building, responses := s.responses ++ [⟨.ok, 0⟩] }) ∧
    (s.seq = .building ∨ s.seq = .frozen ∨ s.seq = .fault → exec .constrain s =
      .next { s with responses := s.responses ++ [⟨.refAlreadyConstrained, 0⟩] })

/-- WITH_TARGET_FREQUENCY (spec/40_builder.md R121): recorded without validation, whatever the frequency. -/
def Obligations.TargetFrequencyIsRecorded : Prop :=
  ∀ (freq : Freq) (s : State),
    (s.seq = .building → exec (.withTargetFrequency freq) s =
      .next { s with bTgt := freq, bTv := true, responses := s.responses ++ [⟨.ok, 0⟩] }) ∧
    (s.seq = .raw → exec (.withTargetFrequency freq) s =
      .next { s with responses := s.responses ++ [⟨.refNotConstrained, 0⟩] }) ∧
    (s.seq = .frozen ∨ s.seq = .fault → exec (.withTargetFrequency freq) s =
      .next { s with responses := s.responses ++ [⟨.refBuilderConsumed, 0⟩] })

/-- WITH_SOURCE (spec/40_builder.md R122): the reserved code 3 is refused in every state that takes a word. -/
def Obligations.SourceIsRecorded : Prop :=
  ∀ (src : BitVec 2) (s : State),
    (src ≠ 3 → s.seq = .building → exec (.withSource src) s =
      .next { s with bSrc := src, responses := s.responses ++ [⟨.ok, 0⟩] }) ∧
    (src ≠ 3 → s.seq = .raw → exec (.withSource src) s =
      .next { s with responses := s.responses ++ [⟨.refNotConstrained, 0⟩] }) ∧
    (src ≠ 3 → s.seq = .frozen ∨ s.seq = .fault → exec (.withSource src) s =
      .next { s with responses := s.responses ++ [⟨.refBuilderConsumed, 0⟩] }) ∧
    (src = 3 → s.seq.busy = false → exec (.withSource src) s =
      .next { s with responses := s.responses ++ [⟨.refIllegalCommand, 0⟩] })

/-! ### The configuration encoder -/

/-- The class decode comes first, for every source (spec/41_encoder.md R141), and the default table. -/
def Obligations.UnsupportedClassFaultsFirst : Prop :=
  (∀ (t : Vector (Option Freq) 8) (src : BitVec 2) (tv : Bool) (tgt : Freq) (cls : OscClass),
    (oscLookup t cls = none → encodeConfig t src tv tgt cls = .error .unsupportedOscillatorReading) ∧
    (∀ main f, oscLookup t cls = some main → encodeConfig t src tv tgt cls = .ok f → f.main = main) ∧
    (oscTablePositive t = true → ∀ main, oscLookup t cls = some main → 0 < main.toNat ∧ main.toNat < 2 ^ 32)) ∧
  oscLookup Config.defaultOscTable 0 = some 4000000 ∧ oscLookup Config.defaultOscTable 1 = some 8000000 ∧
  oscLookup Config.defaultOscTable 2 = some 12000000 ∧
  ∀ cls : OscClass, 3 ≤ cls.toNat → oscLookup Config.defaultOscTable cls = none

/-- An unset target is the source's natural frequency: 32768 for the slow source, the main oscillator's otherwise
(spec/41_encoder.md R142, R143). -/
def Obligations.UnsetTargetIsTheNaturalFrequency : Prop :=
  ∀ (t : Vector (Option Freq) 8) (src : BitVec 2) (tgt : Freq) (cls : OscClass) (main : Freq),
    oscLookup t cls = some main →
    encodeConfig t src false tgt cls = encodeConfig t src true (if src = 0 then 32768 else main) cls

/-- On the divisor path a target of 0 or above the source frequency is an `InvalidFrequencyTarget`, and no other target is
a fault; the source frequency itself is a valid target, with divisor 1 (spec/41_encoder.md R144). -/
def Obligations.DivisorPathValidatesTheTarget : Prop :=
  ∀ (t : Vector (Option Freq) 8) (src : BitVec 2) (tgt : Freq) (cls : OscClass) (main : Freq) (source : Nat),
    oscLookup t cls = some main → src = 0 ∧ source = 32768 ∨ src = 1 ∧ source = main.toNat →
    (tgt.toNat = 0 ∨ source < tgt.toNat → encodeConfig t src true tgt cls = .error .invalidFrequencyTarget) ∧
    (1 ≤ tgt.toNat ∧ tgt.toNat ≤ source → ∃ f, encodeConfig t src true tgt cls = .ok f) ∧
    (1 ≤ source → tgt.toNat = source →
      ∃ f, encodeConfig t src true tgt cls = .ok f ∧ f.pres = 0 ∧ f.applied = 1)

/-- `PRES_TABLE` row by row (spec/41_encoder.md R146). -/
def Obligations.PrescalerTableIsExact : Prop :=
  ∀ d : Nat, 1 ≤ d →
    (d = 1 → presTable d = (0, 1)) ∧ (d = 2 → presTable d = (1, 2)) ∧ (d = 3 → presTable d = (7, 3)) ∧
    (d = 4 → presTable d = (2, 4)) ∧ (5 ≤ d → d ≤ 8 → presTable d = (3, 8)) ∧
    (9 ≤ d → d ≤ 16 → presTable d = (4, 16)) ∧ (17 ≤ d → d ≤ 32 → presTable d = (5, 32)) ∧
    (33 ≤ d → presTable d = (6, 64))

/-- The applied prescaler is what its code denotes, 3 for the code 7 and a power of two for every other
(spec/41_encoder.md R147). -/
def Obligations.AppliedPrescalerIsWhatTheCodeDenotes : Prop :=
  (∀ d : Nat, 1 ≤ d →
    (presTable d).2.toNat = presDecode (presTable d).1 ∧
    (presTable d).2.toNat ∈ [1, 2, 3, 4, 8, 16, 32, 64] ∧
    ((presTable d).1 = 7 → (presTable d).2.toNat = 3) ∧
    ((presTable d).1 ≠ 7 → (presTable d).2.toNat = 2 ^ (presTable d).1.toNat)) ∧
  presDecode 7 = 3 ∧ ∀ c : BitVec 3, c ≠ 7 → presDecode c = 2 ^ c.toNat

/-- The results of the divisor path (spec/41_encoder.md R145, R148, R153). -/
def Obligations.DivisorPathResults : Prop :=
  ∀ (t : Vector (Option Freq) 8) (src : BitVec 2) (tgt : Freq) (cls : OscClass) (main : Freq) (source : Nat) (f : Fields),
    oscLookup t cls = some main → src = 0 ∧ source = 32768 ∨ src = 1 ∧ source = main.toNat →
    encodeConfig t src true tgt cls = .ok f →
    f.main = main ∧ f.css = src ∧ f.mul = none ∧
    (f.pres, f.applied) = presTable (source / tgt.toNat) ∧
    f.mck.toNat = source / f.applied.toNat ∧ f.mck.toNat ≤ source ∧
    (64 ≤ source → 1 ≤ f.mck.toNat) ∧
    f.ratio.toNat = f.mck.toNat / main.toNat

/-- The quotient is the integer nearest to `target / main`, a tie going up (spec/41_encoder.md R149); an integer `q` is
that one iff `target / main - 1/2 < q ≤ target / main + 1/2`, here with both sides times `2 * main`. -/
def Obligations.PllQuotientRoundsTiesUp : Prop :=
  ∀ target main q : Nat, 0 < main →
    (pllQuotient target main = q ↔
      (2 * (target : Int) - main < 2 * q * main ∧ 2 * (q : Int) * main ≤ 2 * target + main)) ∧
    pllQuotient target main = (2 * target + main) / (2 * main) ∧
    pllQuotient 0 main = 0 ∧
    (target < 2 ^ 32 → main < 2 ^ 32 → 2 * target + main < 2 ^ 34)

/-- The multiplier is clamped to [2, 2048] at both ends and always even; a target below the oscillator yields the lowest
one, and no target is invalid on this path (spec/41_encoder.md R150). -/
def Obligations.PllMultiplierIsClamped : Prop :=
  ∀ target main : Nat,
    (pllQuotient target main = 0 → pllMultiplier target main = 2) ∧
    (1 ≤ pllQuotient target main → pllQuotient target main ≤ 1024 →
      pllMultiplier target main = 2 * pllQuotient target main) ∧
    (1024 < pllQuotient target main → pllMultiplier target main = 2048) ∧
    (target < main → pllMultiplier target main = 2) ∧
    2 ≤ pllMultiplier target main ∧ pllMultiplier target main ≤ 2048 ∧ pllMultiplier target main % 2 = 0 ∧
    ∀ (t : Vector (Option Freq) 8) (tv : Bool) (tgt : Freq) (cls : OscClass),
      encodeConfig t 2 tv tgt cls ≠ .error .invalidFrequencyTarget

/-- The PLL path: `FrequencyOverflow` exactly when the product needs more than 32 bits, otherwise the exact product, the
multiplier as applied prescaler and as ratio, and prescaler code 0 (spec/41_encoder.md R151, R152, R153). -/
def Obligations.PllPathResults : Prop :=
  ∀ (t : Vector (Option Freq) 8) (tgt : Freq) (cls : OscClass) (main : Freq) (mul : Nat),
    oscLookup t cls = some main → 0 < main.toNat → mul = pllMultiplier tgt.toNat main.toNat →
    (2 ^ 32 ≤ main.toNat * mul → encodeConfig t 2 true tgt cls = .error .frequencyOverflow) ∧
    (main.toNat * mul < 2 ^ 32 → ∃ f m, encodeConfig t 2 true tgt cls = .ok f ∧
      f.main = main ∧ f.css = 2 ∧ f.pres = 0 ∧ f.mul = some m ∧ m.toNat = mul ∧ f.applied.toNat = mul ∧
      f.mck.toNat = main.toNat * mul ∧ f.ratio.toNat = mul)

/-- Which faults `Encode` reports and when: at most one can apply, and never a timeout (spec/41_encoder.md R154,
spec/60_exceptions.md R254). -/
def Obligations.EncoderFaultsBelongToTheirPath : Prop :=
  ∀ (t : Vector (Option Freq) 8) (src : BitVec 2) (tv : Bool) (tgt : Freq) (cls : OscClass) (e : FaultKind),
    encodeConfig t src tv tgt cls = .error e →
    (e = .unsupportedOscillatorReading ∧ oscLookup t cls = none) ∨
    (e = .invalidFrequencyTarget ∧ src ≠ 2 ∧ tv = true ∧ ∃ main, oscLookup t cls = some main ∧
      (tgt.toNat = 0 ∨ (if src = 0 then 32768 else main.toNat) < tgt.toNat)) ∨
    (e = .invalidFrequencyTarget ∧ src ≠ 2 ∧ src ≠ 0 ∧ tv = false ∧ oscLookup t cls = some 0) ∨
    (e = .frequencyOverflow ∧ src = 2 ∧ ∃ main, oscLookup t cls = some main ∧ 2 ^ 21 ≤ main.toNat)

/-! ### FREEZE and the sequencer -/

/-- FREEZE, the admission step (spec/42_commit_sequencer.md R170): accepted only in `BUILDING`, without a response. -/
def Obligations.FreezeIsAdmittedOnlyWhileBuilding : Prop :=
  ∀ s : State,
    (s.seq = .building → exec .freeze s = .next { s with seq := .sEval }) ∧
    (s.seq = .raw → exec .freeze s = .next { s with responses := s.responses ++ [⟨.refNotConstrained, 0⟩] }) ∧
    (s.seq = .frozen ∨ s.seq = .fault → exec .freeze s =
      .next { s with responses := s.responses ++ [⟨.refBuilderConsumed, 0⟩] })

/-- Step S_EVAL (spec/42_commit_sequencer.md R171): one read of the class, then the fault with site 2 or the staged
fields, and nothing else. -/
def Obligations.EvalStepFaultsOrStages : Prop :=
  ∀ s : State, resetAsserted s = false → s.seq = .sEval →
    (∀ e, encodeConfig s.params.oscTable s.bSrc s.bTv s.bTgt (oscClassAnswer s) = .error e →
      step s = .next { s with
        resetIn := s.resetIn.tail, oscIn := s.oscIn.tail, draws := s.draws + 1,
        trace := s.trace ++ [.rd (.oscClass (oscClassAnswer s))],
        err := e.code, faultSite := 2, seq := .fault, responses := s.responses ++ [⟨e.status, 0⟩] }) ∧
    (∀ f, encodeConfig s.params.oscTable s.bSrc s.bTv s.bTgt (oscClassAnswer s) = .ok f →
      step s = .next { s with
        resetIn := s.resetIn.tail, oscIn := s.oscIn.tail, draws := s.draws + 1,
        trace := s.trace ++ [.rd (.oscClass (oscClassAnswer s))],
        enc := {
          main := f.main, css := f.css, pres := f.pres,
          mul := if s.bSrc = 2 then f.mul.getD s.enc.mul else s.enc.mul,
          applied := f.applied, mck := f.mck, ratio := f.ratio },
        seq := if s.bSrc = 2 then .sWritePll else .sWriteCss })

/-- Step S_WRITE_PLL, PLL source only (spec/42_commit_sequencer.md R172). -/
def Obligations.WritePllStep : Prop :=
  ∀ s : State, resetAsserted s = false → s.seq = .sWritePll →
    step s = .next { s with
      resetIn := s.resetIn.tail, hw := { s.hw with pllMul := s.enc.mul, pllDiv := 2 },
      trace := s.trace ++ [.wr (.pllCtrl s.enc.mul 2)],
      progress := s.progress ||| 0b001, waitCnt := 0, seq := .sWaitLock } ∧
    (Coherent s → s.bSrc = 2)

/-- Step S_WRITE_CSS (spec/42_commit_sequencer.md R174); the code written is that of the source. -/
def Obligations.WriteCssStep : Prop :=
  ∀ s : State, resetAsserted s = false → s.seq = .sWriteCss →
    step s = .next { s with
      resetIn := s.resetIn.tail, hw := { s.hw with css := s.enc.css },
      trace := s.trace ++ [.wr (.css s.enc.css)],
      progress := s.progress ||| 0b010, waitCnt := 0, seq := .sWaitRdy1 } ∧
    (Coherent s → s.enc.css = s.bSrc)

/-- Step S_WRITE_PRES (spec/42_commit_sequencer.md R176); on the PLL path the code written is 0. -/
def Obligations.WritePresStep : Prop :=
  ∀ s : State, resetAsserted s = false → s.seq = .sWritePres →
    step s = .next { s with
      resetIn := s.resetIn.tail, hw := { s.hw with pres := s.enc.pres },
      trace := s.trace ++ [.wr (.pres s.enc.pres)],
      progress := s.progress ||| 0b100, waitCnt := 0, seq := .sWaitRdy2 } ∧
    (Coherent s → s.bSrc = 2 → s.enc.pres = 0)

/-- Step S_WAIT_LOCK, PLL source only (spec/42_commit_sequencer.md R173, R178): one poll of `PLL_LOCK`. -/
def Obligations.LockPollStep : Prop :=
  ∀ s t : State, resetAsserted s = false → s.seq = .sWaitLock →
    t = { s with
      resetIn := s.resetIn.tail, lockIn := s.lockIn.tail, draws := s.draws + 1,
      trace := s.trace ++ [.rd (.pllLock (pllLockAnswer s))] } →
    (pllLockAnswer s = 1#1 → step s = .next { t with seq := .sWriteCss }) ∧
    (pllLockAnswer s ≠ 1#1 → s.params.waitLimit = some (s.waitCnt + 1) →
      step s = .next { t with
        err := 3, faultSite := 4, seq := .fault, responses := s.responses ++ [⟨.errHardwareTimeout, 0⟩] }) ∧
    (pllLockAnswer s ≠ 1#1 → s.params.waitLimit = none → step s = .next t) ∧
    (Coherent s → s.bSrc = 2) ∧
    (∀ n, pllLockAnswer s ≠ 1#1 → s.params.waitLimit = some n → n ≠ s.waitCnt + 1 →
      step s = .next { t with waitCnt := s.waitCnt + 1 })

/-- Step S_WAIT_RDY1 (spec/42_commit_sequencer.md R175, R178): one poll of `MCK_RDY`. -/
def Obligations.FirstReadyPollStep : Prop :=
  ∀ s t : State, resetAsserted s = false → s.seq = .sWaitRdy1 →
    t = { s with
      resetIn := s.resetIn.tail, rdyIn := s.rdyIn.tail, draws := s.draws + 1,
      trace := s.trace ++ [.rd (.mckRdy (mckRdyAnswer s))] } →
    (mckRdyAnswer s = 1#1 → step s = .next { t with seq := .sWritePres }) ∧
    (mckRdyAnswer s ≠ 1#1 → s.params.waitLimit = some (s.waitCnt + 1) →
      step s = .next { t with
        err := 3, faultSite := 6, seq := .fault, responses := s.responses ++ [⟨.errHardwareTimeout, 0⟩] }) ∧
    (mckRdyAnswer s ≠ 1#1 → s.params.waitLimit = none → step s = .next t) ∧
    (∀ n, mckRdyAnswer s ≠ 1#1 → s.params.waitLimit = some n → n ≠ s.waitCnt + 1 →
      step s = .next { t with waitCnt := s.waitCnt + 1 })

/-- Step S_WAIT_RDY2 (spec/42_commit_sequencer.md R177, R178): one poll of `MCK_RDY`, and on a 1 the record is latched
from `b_src` and `enc.*`. -/
def Obligations.SecondReadyPollStep : Prop :=
  ∀ s t : State, resetAsserted s = false → s.seq = .sWaitRdy2 →
    t = { s with
      resetIn := s.resetIn.tail, rdyIn := s.rdyIn.tail, draws := s.draws + 1,
      trace := s.trace ++ [.rd (.mckRdy (mckRdyAnswer s))] } →
    (mckRdyAnswer s = 1#1 → step s = .next { t with
      record := {
        src := s.bSrc, slow := 32768, main := s.enc.main, ratio := s.enc.ratio, mck := s.enc.mck,
        applied := s.enc.applied.zeroExtend 32 },
      seq := .frozen, responses := s.responses ++ [⟨.ok, 0⟩] }) ∧
    (mckRdyAnswer s ≠ 1#1 → s.params.waitLimit = some (s.waitCnt + 1) →
      step s = .next { t with
        err := 3, faultSite := 8, seq := .fault, responses := s.responses ++ [⟨.errHardwareTimeout, 0⟩] }) ∧
    (mckRdyAnswer s ≠ 1#1 → s.params.waitLimit = none → step s = .next t) ∧
    (∀ n, mckRdyAnswer s ≠ 1#1 → s.params.waitLimit = some n → n ≠ s.waitCnt + 1 →
      step s = .next { t with waitCnt := s.waitCnt + 1 })

/-- The access sequence of a FREEZE that reaches `FROZEN` (spec/42_commit_sequencer.md R179): from the state that takes the
FREEZE word to the step that completes it, the trace grows by exactly the row of its source. -/
def Obligations.FreezeAccessSequence : Prop :=
  ∀ (n : Nat) (s u t : State) (w : CmdWord) (rest : List CmdWord),
    s.seq = .building → NoReset s → s.cmdIn = w :: rest → decode s.params.gates w = .ok .freeze →
    RunsTo n s u → u.seq.busy = true → step u = .next t → t.seq = .frozen →
    (s.bSrc = 0 → ∃ c k2 k3, t.trace = s.trace ++ divisorTrace c 0 t.enc.pres k2 k3) ∧
    (s.bSrc = 1 → ∃ c k2 k3, t.trace = s.trace ++ divisorTrace c 1 t.enc.pres k2 k3) ∧
    (s.bSrc = 2 → ∃ c k1 k2 k3, t.trace = s.trace ++ pllTrace c t.enc.mul k1 k2 k3)

/-- Without a reset, `seq` moves only along the transitions of spec/42_commit_sequencer.md R181. -/
def Obligations.SeqMovesOnlyAlongTheTransitions : Prop :=
  ∀ s t : State, resetAsserted s = false → step s = .next t → transition s.seq t.seq = true

/-- At most one FREEZE is accepted between two resets (spec/10_state.md R34): it is accepted only in `BUILDING`, and once
one has been, `BUILDING` is not reached again and every later FREEZE leaves `seq` where it is. -/
def Obligations.AtMostOneFreezeBetweenResets : Prop :=
  (∀ s u : State, exec .freeze s = .next u → u.seq ≠ s.seq → s.seq = .building ∧ u.seq = .sEval) ∧
  ∀ (n : Nat) (s t u : State),
    NoReset s → s.seq ≠ .raw → s.seq ≠ .building → RunsTo n s t → exec .freeze t = .next u →
    t.seq ≠ .building ∧ u.seq = t.seq

/-- The two-phase rule (spec/42_commit_sequencer.md R182): the step that opens a write of `PRES`, or `FROZEN`, is a read of
`MCK_RDY` that returned 1 after the write before it; the step that opens a write of `CSS` on the PLL path is a read of
`PLL_LOCK` that returned 1. -/
def Obligations.NoWriteBeforeItsWaitIsOver : Prop :=
  ∀ s t : State, resetAsserted s = false → step s = .next t →
    (t.seq = .sWritePres → s.seq = .sWaitRdy1 ∧ t.trace = s.trace ++ [.rd (.mckRdy 1)]) ∧
    (t.seq = .frozen → s.seq ≠ .frozen → s.seq = .sWaitRdy2 ∧ t.trace = s.trace ++ [.rd (.mckRdy 1)]) ∧
    (t.seq = .sWriteCss → s.bSrc = 2 → s.seq = .sWaitLock ∧ t.trace = s.trace ++ [.rd (.pllLock 1)]) ∧
    (t.seq = .sWaitRdy1 → s.seq ≠ .sWaitRdy1 → s.seq = .sWriteCss ∧ t.trace = s.trace ++ [.wr (.css s.enc.css)]) ∧
    (t.seq = .sWaitRdy2 → s.seq ≠ .sWaitRdy2 → s.seq = .sWritePres ∧ t.trace = s.trace ++ [.wr (.pres s.enc.pres)])

/-- With an integer `WAIT_LIMIT` a FREEZE in progress ends, in `FROZEN` or in `FAULT`, within three waits of `n` polls and
four other steps, with exactly one response (spec/42_commit_sequencer.md R178, spec/60_exceptions.md R264). -/
def Obligations.BoundedFreezeEnds : Prop :=
  ∀ (s : State) (n : Nat),
    Coherent s → NoReset s → s.seq.busy = true → s.params.waitLimit = some n →
    ∃ m t r, m ≤ 3 * n + 4 ∧ RunsTo m s t ∧ (t.seq = .frozen ∨ t.seq = .fault) ∧ t.responses = s.responses ++ [r]

/-- The hang (spec/60_exceptions.md R264): without a `WAIT_LIMIT`, a wait whose bit reads 0 for ever polls for ever; no
response, no word taken, one read a step. -/
def Obligations.UnboundedWaitHangs : Prop :=
  ∀ (n : Nat) (s : State),
    NoReset s → s.params.waitLimit = none →
    (s.seq = .sWaitRdy1 ∨ s.seq = .sWaitRdy2 → s.rdyIn = ⟨[], some 0⟩ →
      ∃ t, RunsTo n s t ∧ t.seq = s.seq ∧ t.progress = s.progress ∧ t.responses = s.responses ∧ t.cmdIn = s.cmdIn ∧
        t.cmdReady = false ∧ t.trace = s.trace ++ List.replicate n (.rd (.mckRdy 0))) ∧
    (s.seq = .sWaitLock → s.lockIn = ⟨[], some 0⟩ →
      ∃ t, RunsTo n s t ∧ t.seq = s.seq ∧ t.progress = s.progress ∧ t.responses = s.responses ∧ t.cmdIn = s.cmdIn ∧
        t.cmdReady = false ∧ t.trace = s.trace ++ List.replicate n (.rd (.pllLock 0)))

/-! ### The record -/

/-- The six accessors answer the record in `FROZEN` and change nothing else (spec/43_record.md R210 to R216). -/
def Obligations.AccessorsAnswerTheRecord : Prop :=
  ∀ s : State, s.seq = .frozen →
    exec .clockSource s =
      .next { s with responses := s.responses ++ [⟨.ok, s.record.src.zeroExtend 32⟩] } ∧
    exec .slowClockFreq s = .next { s with responses := s.responses ++ [⟨.ok, s.record.slow⟩] } ∧
    exec .mainOscFreq s = .next { s with responses := s.responses ++ [⟨.ok, s.record.main⟩] } ∧
    exec .pllRatio s = .next { s with responses := s.responses ++ [⟨.ok, s.record.ratio⟩] } ∧
    exec .masterClockFreq s = .next { s with responses := s.responses ++ [⟨.ok, s.record.mck⟩] } ∧
    exec .appliedPrescaler s = .next { s with responses := s.responses ++ [⟨.ok, s.record.applied⟩] }

/-- Without a record every accessor is refused (spec/43_record.md R216). -/
def Obligations.AccessorsAreRefusedWithoutARecord : Prop :=
  ∀ (s : State) (i : Instr),
    i ∈ [Instr.clockSource, .slowClockFreq, .mainOscFreq, .pllRatio, .masterClockFreq, .appliedPrescaler] →
    (s.seq = .raw → exec i s = .next { s with responses := s.responses ++ [⟨.refNotConstrained, 0⟩] }) ∧
    (s.seq = .building ∨ s.seq = .fault → exec i s =
      .next { s with responses := s.responses ++ [⟨.refNoRecord, 0⟩] })

/-- The accessors are pure and repeatable and the record is immutable: from `FROZEN`, whatever commands follow, every
accessor answers the same value, with no other effect, until reset (spec/43_record.md R217). -/
def Obligations.RecordIsImmutable : Prop :=
  ∀ (n : Nat) (s t : State), NoReset s → s.seq = .frozen → RunsTo n s t →
    t.seq = .frozen ∧ t.record = s.record ∧
    ∀ i ∈ [Instr.clockSource, .slowClockFreq, .mainOscFreq, .pllRatio, .masterClockFreq, .appliedPrescaler],
      ∃ v, exec i s = .next { s with responses := s.responses ++ [⟨.ok, v⟩] } ∧
        exec i t = .next { t with responses := t.responses ++ [⟨.ok, v⟩] }

/-- SLOW_CLOCK_FREQ answers `0x00008000`, whatever source was chosen (spec/43_record.md R211). -/
def Obligations.SlowClockFreqIsConstant : Prop :=
  ∀ s : State, Coherent s → s.seq = .frozen →
    exec .slowClockFreq s = .next { s with responses := s.responses ++ [⟨.ok, 0x00008000⟩] }

/-- The law of the record on the slow and main paths (spec/10_state.md R35). -/
def Obligations.FrozenRecordOnDivisorPath : Prop :=
  ∀ (s : State) (source : Nat),
    Coherent s → s.seq = .frozen →
    s.record.src = 0 ∧ source = 32768 ∨ s.record.src = 1 ∧ source = s.record.main.toNat →
    s.record.mck.toNat = source / s.record.applied.toNat ∧
    s.record.applied.toNat ∈ [1, 2, 3, 4, 8, 16, 32, 64] ∧
    (∃ p, lastPres s.trace = some p ∧ presDecode p = s.record.applied.toNat) ∧
    lastCss s.trace = some s.record.src ∧
    resolveTarget s.bTv s.bTgt source ≤ source

/-- The law of the record on the PLL path (spec/10_state.md R36). -/
def Obligations.FrozenRecordOnPllPath : Prop :=
  ∀ s : State, Coherent s → s.seq = .frozen → s.record.src = 2 →
    s.record.mck.toNat = s.record.main.toNat * s.record.applied.toNat ∧
    2 ≤ s.record.applied.toNat ∧ s.record.applied.toNat ≤ 2048 ∧ s.record.ratio = s.record.applied ∧
    (∃ m : BitVec 12, lastPllCtrl s.trace = some (m, 2) ∧ m.toNat = s.record.applied.toNat) ∧
    lastCss s.trace = some 2 ∧ lastPres s.trace = some 0

/-! ### Gate commands -/

/-- GATE_ENABLE (spec/44_clock_gate.md R231): one write of a one-bit mask to the enable register of its instance. -/
def Obligations.GateEnableSetsItsBit : Prop :=
  ∀ (k : GateInst) (id : PeriphId) (s : State) (m : GateWord),
    s.seq.busy = false → s.seq ≠ .raw → s.params.gates.contains k id = true →
    m = 1#32 <<< (id.toNat - (s.params.gates.range k).lo.toNat) →
    exec (.gateEnable k id) s = .next { s with
      hw := match k with
        | .low => { s.hw with gateSt0 := s.hw.gateSt0 ||| m }
        | .high => { s.hw with gateSt1 := s.hw.gateSt1 ||| m },
      trace := s.trace ++ [.wr (.gateEn k m)], responses := s.responses ++ [⟨.ok, 0⟩] }

/-- GATE_DISABLE (spec/44_clock_gate.md R232): one write of a one-bit mask to the disable register of its instance. -/
def Obligations.GateDisableClearsItsBit : Prop :=
  ∀ (k : GateInst) (id : PeriphId) (s : State) (m : GateWord),
    s.seq.busy = false → s.seq ≠ .raw → s.params.gates.contains k id = true →
    m = 1#32 <<< (id.toNat - (s.params.gates.range k).lo.toNat) →
    exec (.gateDisable k id) s = .next { s with
      hw := match k with
        | .low => { s.hw with gateSt0 := s.hw.gateSt0 &&& ~~~m }
        | .high => { s.hw with gateSt1 := s.hw.gateSt1 &&& ~~~m },
      trace := s.trace ++ [.wr (.gateDis k m)], responses := s.responses ++ [⟨.ok, 0⟩] }

/-- GATE_STATUS (spec/44_clock_gate.md R233): one read of the status register of its instance, the bit answered. -/
def Obligations.GateStatusAnswersItsBit : Prop :=
  ∀ (k : GateInst) (id : PeriphId) (s : State) (v : GateWord),
    s.seq.busy = false → s.seq ≠ .raw → s.params.gates.contains k id = true →
    v = (match k with | .low => s.hw.gateSt0 | .high => s.hw.gateSt1) →
    exec (.gateStatus k id) s = .next { s with
      trace := s.trace ++ [.rd (.gateSt k v)],
      responses := s.responses ++
        [⟨.ok, if v.getLsbD (id.toNat - (s.params.gates.range k).lo.toNat) then 1 else 0⟩] }

/-- The refusals of the gate commands (spec/44_clock_gate.md R234): an `id` outside the range first, then `RAW`. -/
def Obligations.GateCommandsAreRefused : Prop :=
  ∀ (k : GateInst) (id : PeriphId) (s : State) (i : Instr),
    i ∈ [Instr.gateEnable k id, .gateDisable k id, .gateStatus k id] → s.seq.busy = false →
    (s.params.gates.contains k id = false →
      exec i s = .next { s with responses := s.responses ++ [⟨.refIllegalCommand, 0⟩] }) ∧
    (s.params.gates.contains k id = true → s.seq = .raw →
      exec i s = .next { s with responses := s.responses ++ [⟨.refNotConstrained, 0⟩] })

/-- The gates share nothing with the rest of the block (spec/44_clock_gate.md R234): a gate command touches no block
register, and no other command and no step of the sequencer touches a gate register. -/
def Obligations.GatesAreIndependentOfTheClock : Prop :=
  (∀ (k : GateInst) (id : PeriphId) (i : Instr) (s t : State),
    i ∈ [Instr.gateEnable k id, .gateDisable k id, .gateStatus k id] → exec i s = .next t →
    t = { s with hw := t.hw, trace := t.trace, responses := t.responses } ∧
    t.hw = { s.hw with gateSt0 := t.hw.gateSt0, gateSt1 := t.hw.gateSt1 }) ∧
  (∀ (i : Instr) (s t : State),
    (∀ k id, i ∉ [Instr.gateEnable k id, .gateDisable k id]) → exec i s = .next t →
    t.hw.gateSt0 = s.hw.gateSt0 ∧ t.hw.gateSt1 = s.hw.gateSt1) ∧
  (∀ s t : State, s.seq.busy = true → step s = .next t →
    t.hw.gateSt0 = s.hw.gateSt0 ∧ t.hw.gateSt1 = s.hw.gateSt1)

/-- A gate write is seen by the next status read of the same peripheral, and by no other peripheral's
(spec/44_clock_gate.md R231 to R233, R235). That nothing outside the block changes a gate status word between the two is
log 11 (DEDUCED from the spec's decision D28, unsafe). -/
def Obligations.GateWritesActOnOnePeripheral : Prop :=
  ∀ (k k' : GateInst) (id id' : PeriphId) (s t : State),
    s.params.gates.wf = true → s.seq.busy = false → s.seq ≠ .raw →
    s.params.gates.contains k id = true → s.params.gates.contains k' id' = true →
    (exec (.gateEnable k id) s = .next t →
      ∃ u, exec (.gateStatus k' id') t = .next u ∧
        u.responses = t.responses ++ [⟨.ok,
          if k' = k ∧ id' = id then 1 else gateStatusBit s.params.gates k' id' (s.hw.gateSt k')⟩]) ∧
    (exec (.gateDisable k id) s = .next t →
      ∃ u, exec (.gateStatus k' id') t = .next u ∧
        u.responses = t.responses ++ [⟨.ok,
          if k' = k ∧ id' = id then 0 else gateStatusBit s.params.gates k' id' (s.hw.gateSt k')⟩])

/-! ### Faults, refusals, responses -/

/-- The admission of every well-formed command by state (spec/60_exceptions.md R253). FREEZE in `BUILDING` moves to
`S_EVAL` without a response; every other command and state that takes a word responds by the table. Reading 'not taken' as
no effect is log 8. -/
def Obligations.AdmissionTable : Prop :=
  ∀ (i : Instr) (s t : State), WellFormed s.params.gates i = true → exec i s = .next t →
    (s.seq.busy = true → t = s) ∧
    (s.seq.busy = false →
      (i = .freeze ∧ s.seq = .building ∧ t.seq = .sEval ∧ t.responses = s.responses) ∨
      ¬ (i = .freeze ∧ s.seq = .building) ∧ ∃ r, t.responses = s.responses ++ [r] ∧ r.status =
        (match i, s.seq with
        | .constrain, .raw => .ok
        | .constrain, _ => .refAlreadyConstrained
        | _, .raw => .refNotConstrained
        | .withTargetFrequency _, .building => .ok
        | .withTargetFrequency _, _ => .refBuilderConsumed
        | .withSource _, .building => .ok
        | .withSource _, _ => .refBuilderConsumed
        | .freeze, _ => .refBuilderConsumed
        | .gateEnable _ _, _ => .ok
        | .gateDisable _ _, _ => .ok
        | .gateStatus _ _, _ => .ok
        | _, .frozen => .ok
        | _, _ => .refNoRecord) ∧
        (t.seq = if i = .constrain ∧ s.seq = .raw then .building else s.seq))

/-- A refusal is its response and nothing else (spec/60_exceptions.md R252): a step that answers a status of 0x8 or above
has taken the presented word and changes nothing but the responses, with data 0. -/
def Obligations.RefusalsChangeNothing : Prop :=
  ∀ (s t : State) (r : Response),
    step s = .next t → t.responses = s.responses ++ [r] → 8 ≤ r.status.code.toNat →
    t = { s with cmdIn := s.cmdIn.tail, resetIn := s.resetIn.tail, responses := s.responses ++ [r] } ∧ r.data = 0

/-- Fault entry (spec/60_exceptions.md R255): the step that enters `FAULT` latches the code and the site, responds, and
leaves `progress`, `enc.*`, the record, the builder and the hardware-side fields as they are. -/
def Obligations.FaultEntryIsPrecise : Prop :=
  ∀ s t : State, step s = .next t → t.seq = .fault → s.seq ≠ .fault →
    ∃ f : FaultKind,
      t.err = f.code ∧ t.faultSite = s.seq.code ∧ t.responses = s.responses ++ [⟨f.status, 0⟩] ∧
      t.progress = s.progress ∧ t.enc = s.enc ∧ t.record = s.record ∧ t.waitCnt = s.waitCnt ∧
      t.bSrc = s.bSrc ∧ t.bTv = s.bTv ∧ t.bTgt = s.bTgt ∧ t.hw = s.hw ∧ t.cmdReady = true ∧
      ∃ r, t.trace = s.trace ++ [.rd r]

/-- `FAULT` is left only by reset, and its record stays as it is (spec/60_exceptions.md R256). -/
def Obligations.FaultIsSticky : Prop :=
  ∀ (n : Nat) (s t : State), NoReset s → s.seq = .fault → RunsTo n s t →
    t.seq = .fault ∧ t.err = s.err ∧ t.faultSite = s.faultSite ∧ t.progress = s.progress

/-- A configuration-time fault leaves the hardware as it was before the FREEZE (spec/60_exceptions.md R265). -/
def Obligations.ConfigurationFaultLeavesHardware : Prop :=
  ∀ (n : Nat) (s u t : State) (w : CmdWord) (rest : List CmdWord),
    Coherent s → s.seq = .building → NoReset s → s.cmdIn = w :: rest → decode s.params.gates w = .ok .freeze →
    RunsTo n s u → u.seq.busy = true → step u = .next t → t.seq = .fault →
    t.err = 1 ∨ t.err = 2 ∨ t.err = 4 →
    t.progress = 0 ∧ t.faultSite = 2 ∧ t.hw = s.hw ∧ ∃ c, t.trace = s.trace ++ [.rd (.oscClass c)]

/-- What a timeout leaves (spec/42_commit_sequencer.md R183): the three partial commits, and no record. -/
def Obligations.TimeoutLeavesAPartialCommit : Prop :=
  ∀ s : State, Coherent s → s.seq = .fault → s.err = 3 →
    ((s.faultSite = 4 ∧ s.progress = 0b001 ∧ s.hw.pllMul = s.enc.mul ∧ s.hw.pllDiv = 2) ∨
      (s.faultSite = 6 ∧ s.progress = (if s.bSrc = 2 then 0b011 else 0b010) ∧ s.hw.css = s.enc.css) ∨
      (s.faultSite = 8 ∧ s.progress = (if s.bSrc = 2 then 0b111 else 0b110) ∧
        s.hw.css = s.enc.css ∧ s.hw.pres = s.enc.pres)) ∧
    exec .masterClockFreq s = .next { s with responses := s.responses ++ [⟨.refNoRecord, 0⟩] }

/-! ### Reset and the invariant -/

/-- A reset of the block, in any state (spec/70_reset_and_hazards.md R290, R291): the block registers that the spec gives a
value have it, the hardware side and the trace are untouched, and CONSTRAIN is the only command that is then accepted. That
the step with reset asserted takes no presented word and makes no access of the sequencer is the model's choice (log 6,
unsafe where they coincide), and so is that presented words and earlier responses stay (log 1, log 9, log 10). -/
def Obligations.ResetClearsOnlyTheBlock : Prop :=
  ∀ s : State, resetAsserted s = true →
    ∃ t, step s = .next t ∧
      t.seq = .raw ∧ t.bSrc = 0 ∧ t.bTv = false ∧ t.err = 0 ∧ t.faultSite = 0 ∧ t.progress = 0 ∧ t.waitCnt = 0 ∧
      t.cmdReady = true ∧ t.hw = s.hw ∧ t.trace = s.trace ∧ t.responses = s.responses ∧ t.cmdIn = s.cmdIn ∧
      (∃ u, exec .constrain t = .next u ∧ u.seq = .building) ∧
      ∀ i u, WellFormed t.params.gates i = true → i ≠ .constrain → exec i t = .next u →
        u = { t with responses := t.responses ++ [⟨.refNotConstrained, 0⟩] }

/-- The invariant holds right after reset: at the model's reset state, whose values for `b_tgt`, `enc.*` and `rec.*` are the
model's choice (log 2), and at any other legal parameters and contents of the hardware-side fields. -/
def Obligations.StartingStatesAreCoherent : Prop :=
  Coherent State.reset ∧ ∀ s : State, PowerOn s → Coherent s

/-- Every step keeps the invariant: from every state that has it, reachable or not, and through resets too. -/
def Obligations.EveryStepKeepsCoherence : Prop :=
  ∀ s t : State, Coherent s → step s = .next t → Coherent t

/-- The record of a reachable frozen state tells what the hardware was last told: source, prescaler code and, on the PLL
path, multiplier; and its master-clock frequency is the one that those values denote (spec/42_commit_sequencer.md R177). -/
def Obligations.ReachableRecordMatchesTheHardware : Prop :=
  ∀ s : State, Reachable s → s.seq = .frozen →
    s.hw.css = s.record.src ∧
    (s.record.src = 0 → s.record.mck.toNat = 32768 / presDecode s.hw.pres) ∧
    (s.record.src = 1 → s.record.mck.toNat = s.record.main.toNat / presDecode s.hw.pres) ∧
    (s.record.src = 2 → s.hw.pres = 0 ∧ s.hw.pllDiv = 2 ∧ s.record.mck.toNat = s.record.main.toNat * s.hw.pllMul.toNat) ∧
    s.record.src ≠ 3
end

