-- ==== Sys2Proof/Laws/Decode.lean ====
section
/-! SUPPORT. The fields of a word that is put together from its parts, and of an encoded command. -/

namespace Sys2Proof

@[simp] theorem opField_append (o : BitVec 4) (a : BitVec 32) : opField (o ++ a : BitVec 36) = o := by
  exact BitVec.extractLsb'_append_eq_left

@[simp] theorem argField_append (o : BitVec 4) (a : BitVec 32) : argField (o ++ a : BitVec 36) = a := by
  exact BitVec.extractLsb'_append_eq_right

@[simp] theorem opField_encode (i : Instr) : opField (encode i) = i.opcode := opField_append _ _

@[simp] theorem argField_encode (i : Instr) : argField (encode i) = i.operand := argField_append _ _

@[simp] theorem instOfBit_bitOfInst (k : GateInst) : instOfBit (bitOfInst k) = k := by cases k <;> decide

@[simp] theorem bitOfInst_instOfBit (b : Bit) : bitOfInst (instOfBit b) = b := by revert b; decide

/-- A word is its opcode followed by its operand. -/
theorem opField_append_argField (w : CmdWord) : (opField w ++ argField w : BitVec 36) = w := by
  ext i hi
  simp only [opField, argField, BitVec.getElem_append, BitVec.getElem_extractLsb']
  split
  · simp [BitVec.getLsbD_eq_getElem hi]
  · rename_i h
    have : 32 + (i - 32) = i := by omega
    simp [this, BitVec.getLsbD_eq_getElem hi]

/-- The opcode of a word, as a number. -/
theorem opField_toNat (w : CmdWord) : (opField w).toNat = w.toNat / 2 ^ 32 := by
  have := w.isLt
  simp [opField, BitVec.extractLsb'_toNat, Nat.shiftRight_eq_div_pow]
  omega

/-- The operand of a word, as a number. -/
theorem argField_toNat (w : CmdWord) : (argField w).toNat = w.toNat % 2 ^ 32 := by
  simp [argField, BitVec.extractLsb'_toNat]

end Sys2Proof
end

