-- ==== Sys2Proof/Laws/Encoder.lean ====
section
/-! SUPPORT. What the configuration encoder can answer, path by path. -/

namespace Sys2Proof.Machine

/-- The three ways of `Encode`: the class is unsupported, the PLL path, the divisor path (spec/41_encoder.md R155). -/
theorem encodeConfig_cases (t : Vector (Option Freq) 8) (src : BitVec 2) (tv : Bool) (tgt : Freq) (cls : OscClass) :
    (oscLookup t cls = none ∧ encodeConfig t src tv tgt cls = .error .unsupportedOscillatorReading) ∨
    (∃ main, oscLookup t cls = some main ∧ src = Config.cssPll ∧
      encodeConfig t src tv tgt cls = encodePll main (resolveTarget tv tgt (naturalFreq src main))) ∨
    (∃ main, oscLookup t cls = some main ∧ src ≠ Config.cssPll ∧
      encodeConfig t src tv tgt cls =
        encodeDivisor src main (naturalFreq src main) (resolveTarget tv tgt (naturalFreq src main))) := by
  unfold encodeConfig
  cases oscLookup t cls with
  | none => exact .inl ⟨rfl, rfl⟩
  | some main =>
    by_cases h : src = Config.cssPll
    · exact .inr (.inl ⟨main, rfl, h, by simp [h]⟩)
    · exact .inr (.inr ⟨main, rfl, h, by simp [h]⟩)

/-- A positive table gives positive frequencies only (spec/00_scope.md R6). -/
theorem oscLookup_ne_zero {t : Vector (Option Freq) 8} (h : oscTablePositive t = true) {cls : OscClass} {main : Freq}
    (hl : oscLookup t cls = some main) : main ≠ 0 := by
  rintro rfl
  have := List.all_eq_true.mp h (oscLookup t cls) (by simp [oscLookup])
  simp [hl] at this

/-- A value within the bounds is its own clamp, and every clamp is within them. -/
theorem clamp_mem {v lo hi : Nat} (h : lo ≤ hi) : lo ≤ clamp v lo hi ∧ clamp v lo hi ≤ hi := by
  unfold clamp; split
  · omega
  · split <;> omega

end Sys2Proof.Machine
end

