-- ==== Sys2Proof/Laws/State.lean ====
section
/-! SUPPORT. What each shared operation does to each field of the state, one lemma per field, true by definition, so that
no later proof unfolds a record update. -/

namespace Sys2Proof.Machine

/-! ### setProgress -/

@[simp] theorem setProgress_seq (flag : BitVec 3) (s : State) : (setProgress flag s).seq = s.seq := rfl
@[simp] theorem setProgress_bSrc (flag : BitVec 3) (s : State) : (setProgress flag s).bSrc = s.bSrc := rfl
@[simp] theorem setProgress_bTv (flag : BitVec 3) (s : State) : (setProgress flag s).bTv = s.bTv := rfl
@[simp] theorem setProgress_bTgt (flag : BitVec 3) (s : State) : (setProgress flag s).bTgt = s.bTgt := rfl
@[simp] theorem setProgress_enc (flag : BitVec 3) (s : State) : (setProgress flag s).enc = s.enc := rfl
@[simp] theorem setProgress_record (flag : BitVec 3) (s : State) : (setProgress flag s).record = s.record := rfl
@[simp] theorem setProgress_err (flag : BitVec 3) (s : State) : (setProgress flag s).err = s.err := rfl
@[simp] theorem setProgress_faultSite (flag : BitVec 3) (s : State) : (setProgress flag s).faultSite = s.faultSite := rfl
@[simp] theorem setProgress_progress (flag : BitVec 3) (s : State) : (setProgress flag s).progress = s.progress ||| flag := rfl
@[simp] theorem setProgress_waitCnt (flag : BitVec 3) (s : State) : (setProgress flag s).waitCnt = s.waitCnt := rfl
@[simp] theorem setProgress_hw (flag : BitVec 3) (s : State) : (setProgress flag s).hw = s.hw := rfl
@[simp] theorem setProgress_trace (flag : BitVec 3) (s : State) : (setProgress flag s).trace = s.trace := rfl
@[simp] theorem setProgress_params (flag : BitVec 3) (s : State) : (setProgress flag s).params = s.params := rfl
@[simp] theorem setProgress_cmdIn (flag : BitVec 3) (s : State) : (setProgress flag s).cmdIn = s.cmdIn := rfl
@[simp] theorem setProgress_resetIn (flag : BitVec 3) (s : State) : (setProgress flag s).resetIn = s.resetIn := rfl
@[simp] theorem setProgress_responses (flag : BitVec 3) (s : State) : (setProgress flag s).responses = s.responses := rfl
@[simp] theorem setProgress_oscIn (flag : BitVec 3) (s : State) : (setProgress flag s).oscIn = s.oscIn := rfl
@[simp] theorem setProgress_lockIn (flag : BitVec 3) (s : State) : (setProgress flag s).lockIn = s.lockIn := rfl
@[simp] theorem setProgress_rdyIn (flag : BitVec 3) (s : State) : (setProgress flag s).rdyIn = s.rdyIn := rfl
@[simp] theorem setProgress_draws (flag : BitVec 3) (s : State) : (setProgress flag s).draws = s.draws := rfl

/-! ### hwWrite -/

@[simp] theorem hwWrite_seq (w : HwWrite) (s : State) : (hwWrite w s).seq = s.seq := rfl
@[simp] theorem hwWrite_bSrc (w : HwWrite) (s : State) : (hwWrite w s).bSrc = s.bSrc := rfl
@[simp] theorem hwWrite_bTv (w : HwWrite) (s : State) : (hwWrite w s).bTv = s.bTv := rfl
@[simp] theorem hwWrite_bTgt (w : HwWrite) (s : State) : (hwWrite w s).bTgt = s.bTgt := rfl
@[simp] theorem hwWrite_enc (w : HwWrite) (s : State) : (hwWrite w s).enc = s.enc := rfl
@[simp] theorem hwWrite_record (w : HwWrite) (s : State) : (hwWrite w s).record = s.record := rfl
@[simp] theorem hwWrite_err (w : HwWrite) (s : State) : (hwWrite w s).err = s.err := rfl
@[simp] theorem hwWrite_faultSite (w : HwWrite) (s : State) : (hwWrite w s).faultSite = s.faultSite := rfl
@[simp] theorem hwWrite_progress (w : HwWrite) (s : State) : (hwWrite w s).progress = s.progress := rfl
@[simp] theorem hwWrite_waitCnt (w : HwWrite) (s : State) : (hwWrite w s).waitCnt = s.waitCnt := rfl
@[simp] theorem hwWrite_hw (w : HwWrite) (s : State) : (hwWrite w s).hw = s.hw.onWrite w := rfl
@[simp] theorem hwWrite_trace (w : HwWrite) (s : State) : (hwWrite w s).trace = s.trace ++ [.wr w] := rfl
@[simp] theorem hwWrite_params (w : HwWrite) (s : State) : (hwWrite w s).params = s.params := rfl
@[simp] theorem hwWrite_cmdIn (w : HwWrite) (s : State) : (hwWrite w s).cmdIn = s.cmdIn := rfl
@[simp] theorem hwWrite_resetIn (w : HwWrite) (s : State) : (hwWrite w s).resetIn = s.resetIn := rfl
@[simp] theorem hwWrite_responses (w : HwWrite) (s : State) : (hwWrite w s).responses = s.responses := rfl
@[simp] theorem hwWrite_oscIn (w : HwWrite) (s : State) : (hwWrite w s).oscIn = s.oscIn := rfl
@[simp] theorem hwWrite_lockIn (w : HwWrite) (s : State) : (hwWrite w s).lockIn = s.lockIn := rfl
@[simp] theorem hwWrite_rdyIn (w : HwWrite) (s : State) : (hwWrite w s).rdyIn = s.rdyIn := rfl
@[simp] theorem hwWrite_draws (w : HwWrite) (s : State) : (hwWrite w s).draws = s.draws := rfl

/-! ### hwReadOscClass -/

@[simp] theorem hwReadOscClass_seq (s : State) : (hwReadOscClass s).seq = s.seq := rfl
@[simp] theorem hwReadOscClass_bSrc (s : State) : (hwReadOscClass s).bSrc = s.bSrc := rfl
@[simp] theorem hwReadOscClass_bTv (s : State) : (hwReadOscClass s).bTv = s.bTv := rfl
@[simp] theorem hwReadOscClass_bTgt (s : State) : (hwReadOscClass s).bTgt = s.bTgt := rfl
@[simp] theorem hwReadOscClass_enc (s : State) : (hwReadOscClass s).enc = s.enc := rfl
@[simp] theorem hwReadOscClass_record (s : State) : (hwReadOscClass s).record = s.record := rfl
@[simp] theorem hwReadOscClass_err (s : State) : (hwReadOscClass s).err = s.err := rfl
@[simp] theorem hwReadOscClass_faultSite (s : State) : (hwReadOscClass s).faultSite = s.faultSite := rfl
@[simp] theorem hwReadOscClass_progress (s : State) : (hwReadOscClass s).progress = s.progress := rfl
@[simp] theorem hwReadOscClass_waitCnt (s : State) : (hwReadOscClass s).waitCnt = s.waitCnt := rfl
@[simp] theorem hwReadOscClass_hw (s : State) : (hwReadOscClass s).hw = s.hw := rfl
@[simp] theorem hwReadOscClass_trace (s : State) : (hwReadOscClass s).trace = s.trace ++ [.rd (.oscClass (oscClassAnswer s))] := rfl
@[simp] theorem hwReadOscClass_params (s : State) : (hwReadOscClass s).params = s.params := rfl
@[simp] theorem hwReadOscClass_cmdIn (s : State) : (hwReadOscClass s).cmdIn = s.cmdIn := rfl
@[simp] theorem hwReadOscClass_resetIn (s : State) : (hwReadOscClass s).resetIn = s.resetIn := rfl
@[simp] theorem hwReadOscClass_responses (s : State) : (hwReadOscClass s).responses = s.responses := rfl
@[simp] theorem hwReadOscClass_oscIn (s : State) : (hwReadOscClass s).oscIn = s.oscIn.tail := rfl
@[simp] theorem hwReadOscClass_lockIn (s : State) : (hwReadOscClass s).lockIn = s.lockIn := rfl
@[simp] theorem hwReadOscClass_rdyIn (s : State) : (hwReadOscClass s).rdyIn = s.rdyIn := rfl
@[simp] theorem hwReadOscClass_draws (s : State) : (hwReadOscClass s).draws = s.draws + 1 := rfl

/-! ### hwReadPllLock -/

@[simp] theorem hwReadPllLock_seq (s : State) : (hwReadPllLock s).seq = s.seq := rfl
@[simp] theorem hwReadPllLock_bSrc (s : State) : (hwReadPllLock s).bSrc = s.bSrc := rfl
@[simp] theorem hwReadPllLock_bTv (s : State) : (hwReadPllLock s).bTv = s.bTv := rfl
@[simp] theorem hwReadPllLock_bTgt (s : State) : (hwReadPllLock s).bTgt = s.bTgt := rfl
@[simp] theorem hwReadPllLock_enc (s : State) : (hwReadPllLock s).enc = s.enc := rfl
@[simp] theorem hwReadPllLock_record (s : State) : (hwReadPllLock s).record = s.record := rfl
@[simp] theorem hwReadPllLock_err (s : State) : (hwReadPllLock s).err = s.err := rfl
@[simp] theorem hwReadPllLock_faultSite (s : State) : (hwReadPllLock s).faultSite = s.faultSite := rfl
@[simp] theorem hwReadPllLock_progress (s : State) : (hwReadPllLock s).progress = s.progress := rfl
@[simp] theorem hwReadPllLock_waitCnt (s : State) : (hwReadPllLock s).waitCnt = s.waitCnt := rfl
@[simp] theorem hwReadPllLock_hw (s : State) : (hwReadPllLock s).hw = s.hw := rfl
@[simp] theorem hwReadPllLock_trace (s : State) : (hwReadPllLock s).trace = s.trace ++ [.rd (.pllLock (pllLockAnswer s))] := rfl
@[simp] theorem hwReadPllLock_params (s : State) : (hwReadPllLock s).params = s.params := rfl
@[simp] theorem hwReadPllLock_cmdIn (s : State) : (hwReadPllLock s).cmdIn = s.cmdIn := rfl
@[simp] theorem hwReadPllLock_resetIn (s : State) : (hwReadPllLock s).resetIn = s.resetIn := rfl
@[simp] theorem hwReadPllLock_responses (s : State) : (hwReadPllLock s).responses = s.responses := rfl
@[simp] theorem hwReadPllLock_oscIn (s : State) : (hwReadPllLock s).oscIn = s.oscIn := rfl
@[simp] theorem hwReadPllLock_lockIn (s : State) : (hwReadPllLock s).lockIn = s.lockIn.tail := rfl
@[simp] theorem hwReadPllLock_rdyIn (s : State) : (hwReadPllLock s).rdyIn = s.rdyIn := rfl
@[simp] theorem hwReadPllLock_draws (s : State) : (hwReadPllLock s).draws = s.draws + 1 := rfl

/-! ### hwReadMckRdy -/

@[simp] theorem hwReadMckRdy_seq (s : State) : (hwReadMckRdy s).seq = s.seq := rfl
@[simp] theorem hwReadMckRdy_bSrc (s : State) : (hwReadMckRdy s).bSrc = s.bSrc := rfl
@[simp] theorem hwReadMckRdy_bTv (s : State) : (hwReadMckRdy s).bTv = s.bTv := rfl
@[simp] theorem hwReadMckRdy_bTgt (s : State) : (hwReadMckRdy s).bTgt = s.bTgt := rfl
@[simp] theorem hwReadMckRdy_enc (s : State) : (hwReadMckRdy s).enc = s.enc := rfl
@[simp] theorem hwReadMckRdy_record (s : State) : (hwReadMckRdy s).record = s.record := rfl
@[simp] theorem hwReadMckRdy_err (s : State) : (hwReadMckRdy s).err = s.err := rfl
@[simp] theorem hwReadMckRdy_faultSite (s : State) : (hwReadMckRdy s).faultSite = s.faultSite := rfl
@[simp] theorem hwReadMckRdy_progress (s : State) : (hwReadMckRdy s).progress = s.progress := rfl
@[simp] theorem hwReadMckRdy_waitCnt (s : State) : (hwReadMckRdy s).waitCnt = s.waitCnt := rfl
@[simp] theorem hwReadMckRdy_hw (s : State) : (hwReadMckRdy s).hw = s.hw := rfl
@[simp] theorem hwReadMckRdy_trace (s : State) : (hwReadMckRdy s).trace = s.trace ++ [.rd (.mckRdy (mckRdyAnswer s))] := rfl
@[simp] theorem hwReadMckRdy_params (s : State) : (hwReadMckRdy s).params = s.params := rfl
@[simp] theorem hwReadMckRdy_cmdIn (s : State) : (hwReadMckRdy s).cmdIn = s.cmdIn := rfl
@[simp] theorem hwReadMckRdy_resetIn (s : State) : (hwReadMckRdy s).resetIn = s.resetIn := rfl
@[simp] theorem hwReadMckRdy_responses (s : State) : (hwReadMckRdy s).responses = s.responses := rfl
@[simp] theorem hwReadMckRdy_oscIn (s : State) : (hwReadMckRdy s).oscIn = s.oscIn := rfl
@[simp] theorem hwReadMckRdy_lockIn (s : State) : (hwReadMckRdy s).lockIn = s.lockIn := rfl
@[simp] theorem hwReadMckRdy_rdyIn (s : State) : (hwReadMckRdy s).rdyIn = s.rdyIn.tail := rfl
@[simp] theorem hwReadMckRdy_draws (s : State) : (hwReadMckRdy s).draws = s.draws + 1 := rfl

/-! ### hwReadGateSt -/

@[simp] theorem hwReadGateSt_seq (k : GateInst) (s : State) : (hwReadGateSt k s).seq = s.seq := rfl
@[simp] theorem hwReadGateSt_bSrc (k : GateInst) (s : State) : (hwReadGateSt k s).bSrc = s.bSrc := rfl
@[simp] theorem hwReadGateSt_bTv (k : GateInst) (s : State) : (hwReadGateSt k s).bTv = s.bTv := rfl
@[simp] theorem hwReadGateSt_bTgt (k : GateInst) (s : State) : (hwReadGateSt k s).bTgt = s.bTgt := rfl
@[simp] theorem hwReadGateSt_enc (k : GateInst) (s : State) : (hwReadGateSt k s).enc = s.enc := rfl
@[simp] theorem hwReadGateSt_record (k : GateInst) (s : State) : (hwReadGateSt k s).record = s.record := rfl
@[simp] theorem hwReadGateSt_err (k : GateInst) (s : State) : (hwReadGateSt k s).err = s.err := rfl
@[simp] theorem hwReadGateSt_faultSite (k : GateInst) (s : State) : (hwReadGateSt k s).faultSite = s.faultSite := rfl
@[simp] theorem hwReadGateSt_progress (k : GateInst) (s : State) : (hwReadGateSt k s).progress = s.progress := rfl
@[simp] theorem hwReadGateSt_waitCnt (k : GateInst) (s : State) : (hwReadGateSt k s).waitCnt = s.waitCnt := rfl
@[simp] theorem hwReadGateSt_hw (k : GateInst) (s : State) : (hwReadGateSt k s).hw = s.hw := rfl
@[simp] theorem hwReadGateSt_trace (k : GateInst) (s : State) : (hwReadGateSt k s).trace = s.trace ++ [.rd (.gateSt k (s.hw.gateSt k))] := rfl
@[simp] theorem hwReadGateSt_params (k : GateInst) (s : State) : (hwReadGateSt k s).params = s.params := rfl
@[simp] theorem hwReadGateSt_cmdIn (k : GateInst) (s : State) : (hwReadGateSt k s).cmdIn = s.cmdIn := rfl
@[simp] theorem hwReadGateSt_resetIn (k : GateInst) (s : State) : (hwReadGateSt k s).resetIn = s.resetIn := rfl
@[simp] theorem hwReadGateSt_responses (k : GateInst) (s : State) : (hwReadGateSt k s).responses = s.responses := rfl
@[simp] theorem hwReadGateSt_oscIn (k : GateInst) (s : State) : (hwReadGateSt k s).oscIn = s.oscIn := rfl
@[simp] theorem hwReadGateSt_lockIn (k : GateInst) (s : State) : (hwReadGateSt k s).lockIn = s.lockIn := rfl
@[simp] theorem hwReadGateSt_rdyIn (k : GateInst) (s : State) : (hwReadGateSt k s).rdyIn = s.rdyIn := rfl
@[simp] theorem hwReadGateSt_draws (k : GateInst) (s : State) : (hwReadGateSt k s).draws = s.draws := rfl

/-! ### respond -/

@[simp] theorem respond_seq (c : Status) (d : BitVec 32) (s : State) : (respond c d s).seq = s.seq := rfl
@[simp] theorem respond_bSrc (c : Status) (d : BitVec 32) (s : State) : (respond c d s).bSrc = s.bSrc := rfl
@[simp] theorem respond_bTv (c : Status) (d : BitVec 32) (s : State) : (respond c d s).bTv = s.bTv := rfl
@[simp] theorem respond_bTgt (c : Status) (d : BitVec 32) (s : State) : (respond c d s).bTgt = s.bTgt := rfl
@[simp] theorem respond_enc (c : Status) (d : BitVec 32) (s : State) : (respond c d s).enc = s.enc := rfl
@[simp] theorem respond_record (c : Status) (d : BitVec 32) (s : State) : (respond c d s).record = s.record := rfl
@[simp] theorem respond_err (c : Status) (d : BitVec 32) (s : State) : (respond c d s).err = s.err := rfl
@[simp] theorem respond_faultSite (c : Status) (d : BitVec 32) (s : State) : (respond c d s).faultSite = s.faultSite := rfl
@[simp] theorem respond_progress (c : Status) (d : BitVec 32) (s : State) : (respond c d s).progress = s.progress := rfl
@[simp] theorem respond_waitCnt (c : Status) (d : BitVec 32) (s : State) : (respond c d s).waitCnt = s.waitCnt := rfl
@[simp] theorem respond_hw (c : Status) (d : BitVec 32) (s : State) : (respond c d s).hw = s.hw := rfl
@[simp] theorem respond_trace (c : Status) (d : BitVec 32) (s : State) : (respond c d s).trace = s.trace := rfl
@[simp] theorem respond_params (c : Status) (d : BitVec 32) (s : State) : (respond c d s).params = s.params := rfl
@[simp] theorem respond_cmdIn (c : Status) (d : BitVec 32) (s : State) : (respond c d s).cmdIn = s.cmdIn := rfl
@[simp] theorem respond_resetIn (c : Status) (d : BitVec 32) (s : State) : (respond c d s).resetIn = s.resetIn := rfl
@[simp] theorem respond_responses (c : Status) (d : BitVec 32) (s : State) : (respond c d s).responses = s.responses ++ [⟨c, d⟩] := rfl
@[simp] theorem respond_oscIn (c : Status) (d : BitVec 32) (s : State) : (respond c d s).oscIn = s.oscIn := rfl
@[simp] theorem respond_lockIn (c : Status) (d : BitVec 32) (s : State) : (respond c d s).lockIn = s.lockIn := rfl
@[simp] theorem respond_rdyIn (c : Status) (d : BitVec 32) (s : State) : (respond c d s).rdyIn = s.rdyIn := rfl
@[simp] theorem respond_draws (c : Status) (d : BitVec 32) (s : State) : (respond c d s).draws = s.draws := rfl

/-! ### refuse -/

@[simp] theorem refuse_seq (c : Status) (s : State) : (refuse c s).seq = s.seq := rfl
@[simp] theorem refuse_bSrc (c : Status) (s : State) : (refuse c s).bSrc = s.bSrc := rfl
@[simp] theorem refuse_bTv (c : Status) (s : State) : (refuse c s).bTv = s.bTv := rfl
@[simp] theorem refuse_bTgt (c : Status) (s : State) : (refuse c s).bTgt = s.bTgt := rfl
@[simp] theorem refuse_enc (c : Status) (s : State) : (refuse c s).enc = s.enc := rfl
@[simp] theorem refuse_record (c : Status) (s : State) : (refuse c s).record = s.record := rfl
@[simp] theorem refuse_err (c : Status) (s : State) : (refuse c s).err = s.err := rfl
@[simp] theorem refuse_faultSite (c : Status) (s : State) : (refuse c s).faultSite = s.faultSite := rfl
@[simp] theorem refuse_progress (c : Status) (s : State) : (refuse c s).progress = s.progress := rfl
@[simp] theorem refuse_waitCnt (c : Status) (s : State) : (refuse c s).waitCnt = s.waitCnt := rfl
@[simp] theorem refuse_hw (c : Status) (s : State) : (refuse c s).hw = s.hw := rfl
@[simp] theorem refuse_trace (c : Status) (s : State) : (refuse c s).trace = s.trace := rfl
@[simp] theorem refuse_params (c : Status) (s : State) : (refuse c s).params = s.params := rfl
@[simp] theorem refuse_cmdIn (c : Status) (s : State) : (refuse c s).cmdIn = s.cmdIn := rfl
@[simp] theorem refuse_resetIn (c : Status) (s : State) : (refuse c s).resetIn = s.resetIn := rfl
@[simp] theorem refuse_responses (c : Status) (s : State) : (refuse c s).responses = s.responses ++ [⟨c, 0⟩] := rfl
@[simp] theorem refuse_oscIn (c : Status) (s : State) : (refuse c s).oscIn = s.oscIn := rfl
@[simp] theorem refuse_lockIn (c : Status) (s : State) : (refuse c s).lockIn = s.lockIn := rfl
@[simp] theorem refuse_rdyIn (c : Status) (s : State) : (refuse c s).rdyIn = s.rdyIn := rfl
@[simp] theorem refuse_draws (c : Status) (s : State) : (refuse c s).draws = s.draws := rfl

/-! ### raiseFault -/

@[simp] theorem raiseFault_seq (f : FaultKind) (site : BitVec 4) (s : State) : (raiseFault f site s).seq = .fault := rfl
@[simp] theorem raiseFault_bSrc (f : FaultKind) (site : BitVec 4) (s : State) : (raiseFault f site s).bSrc = s.bSrc := rfl
@[simp] theorem raiseFault_bTv (f : FaultKind) (site : BitVec 4) (s : State) : (raiseFault f site s).bTv = s.bTv := rfl
@[simp] theorem raiseFault_bTgt (f : FaultKind) (site : BitVec 4) (s : State) : (raiseFault f site s).bTgt = s.bTgt := rfl
@[simp] theorem raiseFault_enc (f : FaultKind) (site : BitVec 4) (s : State) : (raiseFault f site s).enc = s.enc := rfl
@[simp] theorem raiseFault_record (f : FaultKind) (site : BitVec 4) (s : State) : (raiseFault f site s).record = s.record := rfl
@[simp] theorem raiseFault_err (f : FaultKind) (site : BitVec 4) (s : State) : (raiseFault f site s).err = f.code := rfl
@[simp] theorem raiseFault_faultSite (f : FaultKind) (site : BitVec 4) (s : State) : (raiseFault f site s).faultSite = site := rfl
@[simp] theorem raiseFault_progress (f : FaultKind) (site : BitVec 4) (s : State) : (raiseFault f site s).progress = s.progress := rfl
@[simp] theorem raiseFault_waitCnt (f : FaultKind) (site : BitVec 4) (s : State) : (raiseFault f site s).waitCnt = s.waitCnt := rfl
@[simp] theorem raiseFault_hw (f : FaultKind) (site : BitVec 4) (s : State) : (raiseFault f site s).hw = s.hw := rfl
@[simp] theorem raiseFault_trace (f : FaultKind) (site : BitVec 4) (s : State) : (raiseFault f site s).trace = s.trace := rfl
@[simp] theorem raiseFault_params (f : FaultKind) (site : BitVec 4) (s : State) : (raiseFault f site s).params = s.params := rfl
@[simp] theorem raiseFault_cmdIn (f : FaultKind) (site : BitVec 4) (s : State) : (raiseFault f site s).cmdIn = s.cmdIn := rfl
@[simp] theorem raiseFault_resetIn (f : FaultKind) (site : BitVec 4) (s : State) : (raiseFault f site s).resetIn = s.resetIn := rfl
@[simp] theorem raiseFault_responses (f : FaultKind) (site : BitVec 4) (s : State) : (raiseFault f site s).responses = s.responses ++ [⟨f.status, 0⟩] := rfl
@[simp] theorem raiseFault_oscIn (f : FaultKind) (site : BitVec 4) (s : State) : (raiseFault f site s).oscIn = s.oscIn := rfl
@[simp] theorem raiseFault_lockIn (f : FaultKind) (site : BitVec 4) (s : State) : (raiseFault f site s).lockIn = s.lockIn := rfl
@[simp] theorem raiseFault_rdyIn (f : FaultKind) (site : BitVec 4) (s : State) : (raiseFault f site s).rdyIn = s.rdyIn := rfl
@[simp] theorem raiseFault_draws (f : FaultKind) (site : BitVec 4) (s : State) : (raiseFault f site s).draws = s.draws := rfl

/-! ### blockReset -/

@[simp] theorem blockReset_seq (s : State) : (blockReset s).seq = .raw := rfl
@[simp] theorem blockReset_bSrc (s : State) : (blockReset s).bSrc = 0 := rfl
@[simp] theorem blockReset_bTv (s : State) : (blockReset s).bTv = false := rfl
@[simp] theorem blockReset_bTgt (s : State) : (blockReset s).bTgt = 0 := rfl
@[simp] theorem blockReset_enc (s : State) : (blockReset s).enc = EncRegs.reset := rfl
@[simp] theorem blockReset_record (s : State) : (blockReset s).record = RecRegs.reset := rfl
@[simp] theorem blockReset_err (s : State) : (blockReset s).err = 0 := rfl
@[simp] theorem blockReset_faultSite (s : State) : (blockReset s).faultSite = 0 := rfl
@[simp] theorem blockReset_progress (s : State) : (blockReset s).progress = 0 := rfl
@[simp] theorem blockReset_waitCnt (s : State) : (blockReset s).waitCnt = 0 := rfl
@[simp] theorem blockReset_hw (s : State) : (blockReset s).hw = s.hw := rfl
@[simp] theorem blockReset_trace (s : State) : (blockReset s).trace = s.trace := rfl
@[simp] theorem blockReset_params (s : State) : (blockReset s).params = s.params := rfl
@[simp] theorem blockReset_cmdIn (s : State) : (blockReset s).cmdIn = s.cmdIn := rfl
@[simp] theorem blockReset_resetIn (s : State) : (blockReset s).resetIn = s.resetIn := rfl
@[simp] theorem blockReset_responses (s : State) : (blockReset s).responses = s.responses := rfl
@[simp] theorem blockReset_oscIn (s : State) : (blockReset s).oscIn = s.oscIn := rfl
@[simp] theorem blockReset_lockIn (s : State) : (blockReset s).lockIn = s.lockIn := rfl
@[simp] theorem blockReset_rdyIn (s : State) : (blockReset s).rdyIn = s.rdyIn := rfl
@[simp] theorem blockReset_draws (s : State) : (blockReset s).draws = s.draws := rfl

/-! ### sampleReset -/

@[simp] theorem sampleReset_seq (s : State) : (sampleReset s).seq = s.seq := rfl
@[simp] theorem sampleReset_bSrc (s : State) : (sampleReset s).bSrc = s.bSrc := rfl
@[simp] theorem sampleReset_bTv (s : State) : (sampleReset s).bTv = s.bTv := rfl
@[simp] theorem sampleReset_bTgt (s : State) : (sampleReset s).bTgt = s.bTgt := rfl
@[simp] theorem sampleReset_enc (s : State) : (sampleReset s).enc = s.enc := rfl
@[simp] theorem sampleReset_record (s : State) : (sampleReset s).record = s.record := rfl
@[simp] theorem sampleReset_err (s : State) : (sampleReset s).err = s.err := rfl
@[simp] theorem sampleReset_faultSite (s : State) : (sampleReset s).faultSite = s.faultSite := rfl
@[simp] theorem sampleReset_progress (s : State) : (sampleReset s).progress = s.progress := rfl
@[simp] theorem sampleReset_waitCnt (s : State) : (sampleReset s).waitCnt = s.waitCnt := rfl
@[simp] theorem sampleReset_hw (s : State) : (sampleReset s).hw = s.hw := rfl
@[simp] theorem sampleReset_trace (s : State) : (sampleReset s).trace = s.trace := rfl
@[simp] theorem sampleReset_params (s : State) : (sampleReset s).params = s.params := rfl
@[simp] theorem sampleReset_cmdIn (s : State) : (sampleReset s).cmdIn = s.cmdIn := rfl
@[simp] theorem sampleReset_resetIn (s : State) : (sampleReset s).resetIn = s.resetIn.tail := rfl
@[simp] theorem sampleReset_responses (s : State) : (sampleReset s).responses = s.responses := rfl
@[simp] theorem sampleReset_oscIn (s : State) : (sampleReset s).oscIn = s.oscIn := rfl
@[simp] theorem sampleReset_lockIn (s : State) : (sampleReset s).lockIn = s.lockIn := rfl
@[simp] theorem sampleReset_rdyIn (s : State) : (sampleReset s).rdyIn = s.rdyIn := rfl
@[simp] theorem sampleReset_draws (s : State) : (sampleReset s).draws = s.draws := rfl

/-! ### takeWord -/

@[simp] theorem takeWord_seq (s : State) : (takeWord s).seq = s.seq := rfl
@[simp] theorem takeWord_bSrc (s : State) : (takeWord s).bSrc = s.bSrc := rfl
@[simp] theorem takeWord_bTv (s : State) : (takeWord s).bTv = s.bTv := rfl
@[simp] theorem takeWord_bTgt (s : State) : (takeWord s).bTgt = s.bTgt := rfl
@[simp] theorem takeWord_enc (s : State) : (takeWord s).enc = s.enc := rfl
@[simp] theorem takeWord_record (s : State) : (takeWord s).record = s.record := rfl
@[simp] theorem takeWord_err (s : State) : (takeWord s).err = s.err := rfl
@[simp] theorem takeWord_faultSite (s : State) : (takeWord s).faultSite = s.faultSite := rfl
@[simp] theorem takeWord_progress (s : State) : (takeWord s).progress = s.progress := rfl
@[simp] theorem takeWord_waitCnt (s : State) : (takeWord s).waitCnt = s.waitCnt := rfl
@[simp] theorem takeWord_hw (s : State) : (takeWord s).hw = s.hw := rfl
@[simp] theorem takeWord_trace (s : State) : (takeWord s).trace = s.trace := rfl
@[simp] theorem takeWord_params (s : State) : (takeWord s).params = s.params := rfl
@[simp] theorem takeWord_cmdIn (s : State) : (takeWord s).cmdIn = s.cmdIn.tail := rfl
@[simp] theorem takeWord_resetIn (s : State) : (takeWord s).resetIn = s.resetIn := rfl
@[simp] theorem takeWord_responses (s : State) : (takeWord s).responses = s.responses := rfl
@[simp] theorem takeWord_oscIn (s : State) : (takeWord s).oscIn = s.oscIn := rfl
@[simp] theorem takeWord_lockIn (s : State) : (takeWord s).lockIn = s.lockIn := rfl
@[simp] theorem takeWord_rdyIn (s : State) : (takeWord s).rdyIn = s.rdyIn := rfl
@[simp] theorem takeWord_draws (s : State) : (takeWord s).draws = s.draws := rfl

/-! ### presentWord -/

@[simp] theorem presentWord_seq (w : CmdWord) (s : State) : (presentWord w s).seq = s.seq := rfl
@[simp] theorem presentWord_bSrc (w : CmdWord) (s : State) : (presentWord w s).bSrc = s.bSrc := rfl
@[simp] theorem presentWord_bTv (w : CmdWord) (s : State) : (presentWord w s).bTv = s.bTv := rfl
@[simp] theorem presentWord_bTgt (w : CmdWord) (s : State) : (presentWord w s).bTgt = s.bTgt := rfl
@[simp] theorem presentWord_enc (w : CmdWord) (s : State) : (presentWord w s).enc = s.enc := rfl
@[simp] theorem presentWord_record (w : CmdWord) (s : State) : (presentWord w s).record = s.record := rfl
@[simp] theorem presentWord_err (w : CmdWord) (s : State) : (presentWord w s).err = s.err := rfl
@[simp] theorem presentWord_faultSite (w : CmdWord) (s : State) : (presentWord w s).faultSite = s.faultSite := rfl
@[simp] theorem presentWord_progress (w : CmdWord) (s : State) : (presentWord w s).progress = s.progress := rfl
@[simp] theorem presentWord_waitCnt (w : CmdWord) (s : State) : (presentWord w s).waitCnt = s.waitCnt := rfl
@[simp] theorem presentWord_hw (w : CmdWord) (s : State) : (presentWord w s).hw = s.hw := rfl
@[simp] theorem presentWord_trace (w : CmdWord) (s : State) : (presentWord w s).trace = s.trace := rfl
@[simp] theorem presentWord_params (w : CmdWord) (s : State) : (presentWord w s).params = s.params := rfl
@[simp] theorem presentWord_cmdIn (w : CmdWord) (s : State) : (presentWord w s).cmdIn = w :: s.cmdIn := rfl
@[simp] theorem presentWord_resetIn (w : CmdWord) (s : State) : (presentWord w s).resetIn = false :: s.resetIn := rfl
@[simp] theorem presentWord_responses (w : CmdWord) (s : State) : (presentWord w s).responses = s.responses := rfl
@[simp] theorem presentWord_oscIn (w : CmdWord) (s : State) : (presentWord w s).oscIn = s.oscIn := rfl
@[simp] theorem presentWord_lockIn (w : CmdWord) (s : State) : (presentWord w s).lockIn = s.lockIn := rfl
@[simp] theorem presentWord_rdyIn (w : CmdWord) (s : State) : (presentWord w s).rdyIn = s.rdyIn := rfl
@[simp] theorem presentWord_draws (w : CmdWord) (s : State) : (presentWord w s).draws = s.draws := rfl

end Sys2Proof.Machine
end

