-- ==== Sys2Proof/Laws/Ops.lean ====
section
/-! SUPPORT. One lemma per shared operation that says once everything it can do, for the provers to cite instead of
unfolding it. -/

namespace Sys2Proof.Machine

/-! ### The clock hardware -/

@[simp] theorem onWrite_css (h : HwSide) (v : BitVec 2) : h.onWrite (.css v) = { h with css := v } := rfl

@[simp] theorem onWrite_pres (h : HwSide) (v : BitVec 3) : h.onWrite (.pres v) = { h with pres := v } := rfl

@[simp] theorem onWrite_pllCtrl (h : HwSide) (m : BitVec 12) (d : BitVec 8) :
    h.onWrite (.pllCtrl m d) = { h with pllMul := m, pllDiv := d } := rfl

@[simp] theorem onWrite_gateEn_low (h : HwSide) (m : GateWord) :
    h.onWrite (.gateEn .low m) = { h with gateSt0 := h.gateSt0 ||| m } := rfl

@[simp] theorem onWrite_gateEn_high (h : HwSide) (m : GateWord) :
    h.onWrite (.gateEn .high m) = { h with gateSt1 := h.gateSt1 ||| m } := rfl

@[simp] theorem onWrite_gateDis_low (h : HwSide) (m : GateWord) :
    h.onWrite (.gateDis .low m) = { h with gateSt0 := h.gateSt0 &&& ~~~m } := rfl

@[simp] theorem onWrite_gateDis_high (h : HwSide) (m : GateWord) :
    h.onWrite (.gateDis .high m) = { h with gateSt1 := h.gateSt1 &&& ~~~m } := rfl

/-! ### The packed value of `PLL_CTRL` -/

/-- `MUL` stands in bits 19:8 (spec/30_encoding.md R102). -/
@[simp] theorem pllCtrlValue_mul (mul : BitVec 12) (div : BitVec 8) : (pllCtrlValue mul div).extractLsb' 8 12 = mul := by
  apply BitVec.eq_of_getLsbD_eq; intro i hi
  simp only [BitVec.getLsbD_extractLsb', hi, decide_true, Bool.true_and]
  refine (BitVec.getLsbD_append (x := mul) (y := div) (i := 8 + i)).trans ?_
  simp [hi]

/-- `DIV` stands in bits 7:0 (spec/30_encoding.md R102). -/
@[simp] theorem pllCtrlValue_div (mul : BitVec 12) (div : BitVec 8) : (pllCtrlValue mul div).extractLsb' 0 8 = div := by
  apply BitVec.eq_of_getLsbD_eq; intro i hi
  simp only [BitVec.getLsbD_extractLsb', hi, decide_true, Bool.true_and]
  refine (BitVec.getLsbD_append (x := mul) (y := div) (i := 0 + i)).trans ?_
  simp [hi]

/-- A write access to `PLL_CTRL` leaves the value it carries. -/
theorem onWrite_pllCtrlBits {h : HwSide} {w : HwWrite} {v : BitVec 20} (hw : w.pllCtrlBits = some v) :
    (h.onWrite w).pllCtrl = v := by
  cases w <;> simp_all [HwWrite.pllCtrlBits, HwSide.pllCtrl]

/-! ### Feeds -/

@[simp] theorem answer_cons {w : Nat} (v : BitVec w) (vs : List (BitVec w)) (r : Option (BitVec w)) (free : BitVec w) :
    (Feed.mk (v :: vs) r).answer free = v := rfl

@[simp] theorem answer_repeats {w : Nat} (v free : BitVec w) : (Feed.mk [] (some v)).answer free = v := rfl

@[simp] theorem answer_free {w : Nat} (free : BitVec w) : (Feed.free : Feed w).answer free = free := rfl

@[simp] theorem tail_sched {w : Nat} (f : Feed w) : f.tail.sched = f.sched.tail := rfl

@[simp] theorem tail_rest {w : Nat} (f : Feed w) : f.tail.rest = f.rest := rfl

/-! ### Admission -/

/-- A word that is taken acts; one that is not leaves the state alone. -/
theorem whenTaken_cases (s : State) (act : State → State) :
    (s.seq.busy = true ∧ whenTaken s act = s) ∨ (s.seq.busy = false ∧ whenTaken s act = act s) := by
  unfold whenTaken
  cases h : s.seq.busy
  · exact .inr ⟨rfl, by simp⟩
  · exact .inl ⟨rfl, by simp⟩

/-- The three outcomes of a builder command's admission. -/
theorem inBuilding_cases (s : State) (act : State → State) :
    (s.seq = .raw ∧ inBuilding s act = refuse .refNotConstrained s) ∨
    (s.seq = .building ∧ inBuilding s act = act s) ∨
    (s.seq ≠ .raw ∧ s.seq ≠ .building ∧ inBuilding s act = refuse .refBuilderConsumed s) := by
  unfold inBuilding
  cases h : s.seq <;> simp

/-- The three outcomes of an accessor. -/
theorem answerFrozen_cases (value : RecRegs → BitVec 32) (s : State) :
    (s.seq = .raw ∧ answerFrozen value s = refuse .refNotConstrained s) ∨
    (s.seq = .frozen ∧ answerFrozen value s = respond .ok (value s.record) s) ∨
    (s.seq ≠ .raw ∧ s.seq ≠ .frozen ∧ answerFrozen value s = refuse .refNoRecord s) := by
  unfold answerFrozen
  cases h : s.seq <;> simp

/-- The three outcomes of a gate command's admission. -/
theorem admitGate_cases (k : GateInst) (id : PeriphId) (s : State) (act : State → State) :
    (s.params.gates.contains k id = false ∧ admitGate k id s act = refuse .refIllegalCommand s) ∨
    (s.params.gates.contains k id = true ∧ s.seq = .raw ∧ admitGate k id s act = refuse .refNotConstrained s) ∨
    (s.params.gates.contains k id = true ∧ s.seq ≠ .raw ∧ admitGate k id s act = act s) := by
  unfold admitGate
  cases h : s.params.gates.contains k id
  · simp
  · by_cases hr : s.seq = .raw <;> simp [hr]

/-! ### The poll rule -/

/-- The four outcomes of a poll (spec/42_commit_sequencer.md R178). -/
theorem afterPoll_cases (site : Seq) (b : Bit) (done : State → State) (s : State) :
    (b = 1#1 ∧ afterPoll site b done s = done s) ∨
    (b ≠ 1#1 ∧ s.params.waitLimit = some (s.waitCnt + 1) ∧
      afterPoll site b done s = raiseFault .hardwareTimeout site.code s) ∨
    (b ≠ 1#1 ∧ s.params.waitLimit = none ∧ afterPoll site b done s = s) ∨
    (b ≠ 1#1 ∧ (∃ n, s.params.waitLimit = some n ∧ n ≠ s.waitCnt + 1) ∧
      afterPoll site b done s = { s with waitCnt := s.waitCnt + 1 }) := by
  unfold afterPoll
  by_cases hb : b = 1#1
  · simp [hb]
  · cases hl : s.params.waitLimit with
    | none => simp [hb]
    | some n =>
      by_cases hn : n = s.waitCnt + 1 <;> simp [hb, hn]

/-- A bit that is not 1 is 0. -/
theorem bit_eq_zero_of_ne_one {b : Bit} (h : b ≠ 1#1) : b = 0#1 := by
  revert b; decide

/-! ### The step -/

/-- Everything one step can do (spec/00_scope.md R10): a reset, a step of the sequencer, waiting, a refusal of a reserved
word, a command. -/
theorem step_cases {s t : State} (h : step s = .next t) :
    (resetAsserted s = true ∧ t = blockReset (sampleReset s)) ∨
    (resetAsserted s = false ∧ s.seq.busy = true ∧ t = sequencerStep (sampleReset s)) ∨
    (resetAsserted s = false ∧ s.seq.busy = false ∧ s.cmdIn = [] ∧ t = sampleReset s) ∨
    (resetAsserted s = false ∧ s.seq.busy = false ∧ ∃ w rest e, s.cmdIn = w :: rest ∧
      decode s.params.gates w = .error e ∧ t = refuse .refIllegalCommand (takeWord (sampleReset s))) ∨
    (resetAsserted s = false ∧ s.seq.busy = false ∧ ∃ w rest i, s.cmdIn = w :: rest ∧
      decode s.params.gates w = .ok i ∧ exec i (takeWord (sampleReset s)) = .next t) := by
  unfold step presentedWord fetchDecode at h
  cases hr : resetAsserted s with
  | true => simp [hr] at h; exact .inl ⟨rfl, h.symm⟩
  | false =>
    cases hb : s.seq.busy with
    | true => simp [hr, hb] at h; exact .inr (.inl ⟨rfl, rfl, h.symm⟩)
    | false =>
      simp only [hr, hb, Bool.false_eq_true, if_false] at h
      cases hc : s.cmdIn with
      | nil => simp [hc] at h; exact .inr (.inr (.inl ⟨rfl, rfl, rfl, h.symm⟩))
      | cons w rest =>
        simp only [hc, List.head?_cons] at h
        cases hd : decode s.params.gates w with
        | error e =>
          simp only [hd, Host.Outcome.next.injEq] at h
          exact .inr (.inr (.inr (.inl ⟨rfl, rfl, w, rest, e, rfl, hd, h.symm⟩)))
        | ok i =>
          simp only [hd] at h
          exact .inr (.inr (.inr (.inr ⟨rfl, rfl, w, rest, i, rfl, hd, h⟩)))

/-- The steps of the sequencer, by state (spec/10_state.md R21). -/
theorem sequencerStep_cases {s : State} (h : s.seq.busy = true) :
    (s.seq = .sEval ∧ sequencerStep s = stepEval s) ∨
    (s.seq = .sWritePll ∧ sequencerStep s = stepWritePll s) ∨
    (s.seq = .sWaitLock ∧ sequencerStep s = stepWaitLock s) ∨
    (s.seq = .sWriteCss ∧ sequencerStep s = stepWriteCss s) ∨
    (s.seq = .sWaitRdy1 ∧ sequencerStep s = stepWaitRdy1 s) ∨
    (s.seq = .sWritePres ∧ sequencerStep s = stepWritePres s) ∨
    (s.seq = .sWaitRdy2 ∧ sequencerStep s = stepWaitRdy2 s) := by
  cases hs : s.seq <;> simp_all [Seq.busy, sequencerStep]

/-- The two outcomes of S_EVAL (spec/42_commit_sequencer.md R171). -/
theorem stepEval_cases (s : State) :
    (∃ f, encodeConfig s.params.oscTable s.bSrc s.bTv s.bTgt (oscClassAnswer s) = .error f ∧
      stepEval s = raiseFault f Seq.sEval.code (hwReadOscClass s)) ∨
    (∃ r, encodeConfig s.params.oscTable s.bSrc s.bTv s.bTgt (oscClassAnswer s) = .ok r ∧
      stepEval s = { hwReadOscClass s with
        enc := s.enc.stage s.bSrc r
        seq := if s.bSrc = Config.cssPll then .sWritePll else .sWriteCss }) := by
  unfold stepEval
  cases encodeConfig s.params.oscTable s.bSrc s.bTv s.bTgt (oscClassAnswer s) with
  | error f => exact .inl ⟨f, rfl, rfl⟩
  | ok r => exact .inr ⟨r, rfl, rfl⟩

end Sys2Proof.Machine
end

