-- ==== Sys2Proof/Laws/PerInstr.lean ====
section
/-! SUPPORT. A property of the encoding of every command, one lemma per command: the encoded word selects the row of the
opcode map that the command belongs to (spec/30_encoding.md R96). -/

namespace Sys2Proof.Laws.EncodingSelectsItsRow

/-- The word of `i` selects the row of `i`: `(w AND mask) = match`. -/
def Statement (i : Instr) : Prop := selects (encode i) i.row = true

/-- A word whose operand has only bits that the mask leaves free selects its row. -/
theorem selects_of_operand {o : BitVec 4} {a m : BitVec 32} (h : a &&& m = 0#32) :
    selects (o ++ a : BitVec 36) ((o ++ 0#32 : BitVec 36), (0xF#4 ++ m : BitVec 36)) = true := by
  have ho : o &&& 0xF#4 = o := by revert o; decide
  have : ((o ++ a : BitVec 36) &&& (0xF#4 ++ m : BitVec 36)) = (o ++ 0#32 : BitVec 36) := by
    exact BitVec.and_append.trans (by rw [ho, h])
  simp [selects, this]

/-- The must-be-zero bits of format S are zero in every operand. -/
theorem source_operand_and_mask (src : BitVec 2) : (Instr.withSource src).operand &&& 0xFFFFFFFC#32 = 0#32 := by
  revert src; decide

/-- The must-be-zero bits of format G are zero in every operand. -/
theorem gate_operand_and_mask (k : GateInst) (id : PeriphId) : gateOperand k id &&& 0xFFFFFF80#32 = 0#32 := by
  cases k <;> revert id <;> decide

theorem constrain : Statement .constrain := by unfold Statement; decide

theorem withTargetFrequency (freq : Freq) : Statement (.withTargetFrequency freq) :=
  selects_of_operand (o := 0x2#4) (m := 0#32) (BitVec.and_zero ..)

theorem withSource (src : BitVec 2) : Statement (.withSource src) :=
  selects_of_operand (o := 0x3#4) (source_operand_and_mask src)

theorem freeze : Statement .freeze := by unfold Statement; decide

theorem gateEnable (inst : GateInst) (id : PeriphId) : Statement (.gateEnable inst id) :=
  selects_of_operand (o := 0x5#4) (gate_operand_and_mask inst id)

theorem gateDisable (inst : GateInst) (id : PeriphId) : Statement (.gateDisable inst id) :=
  selects_of_operand (o := 0x6#4) (gate_operand_and_mask inst id)

theorem gateStatus (inst : GateInst) (id : PeriphId) : Statement (.gateStatus inst id) :=
  selects_of_operand (o := 0x7#4) (gate_operand_and_mask inst id)

theorem clockSource : Statement .clockSource := by unfold Statement; decide

theorem slowClockFreq : Statement .slowClockFreq := by unfold Statement; decide

theorem mainOscFreq : Statement .mainOscFreq := by unfold Statement; decide

theorem pllRatio : Statement .pllRatio := by unfold Statement; decide

theorem masterClockFreq : Statement .masterClockFreq := by unfold Statement; decide

theorem appliedPrescaler : Statement .appliedPrescaler := by unfold Statement; decide

end Sys2Proof.Laws.EncodingSelectsItsRow
end

