-- ==== Sys2Proof/Laws/Run.lean ====
section
/-! SUPPORT. Runs: what a command leaves alone, the response port of a step, and that a FREEZE ends under the premise
`HW_EVENTUALLY_READY`. -/

namespace Sys2Proof.Machine

/-! ### The response port -/

/-- A command changes at most `seq`, the builder, the hardware side, the trace and the responses, and adds at most one
response. -/
theorem exec_frame {i : Instr} {s t : State} (h : exec i s = .next t) :
    t = { s with
      seq := t.seq, bSrc := t.bSrc, bTv := t.bTv, bTgt := t.bTgt, hw := t.hw, trace := t.trace,
      responses := t.responses } ∧
    (t.responses = s.responses ∨ ∃ r, t.responses = s.responses ++ [r]) := by
  cases i <;>
    simp only [exec, execConstrain, execWithTargetFrequency, execWithSource, execFreeze, execGateEnable,
      execGateDisable, execGateStatus, execClockSource, execSlowClockFreq, execMainOscFreq, execPllRatio,
      execMasterClockFreq, execAppliedPrescaler, whenTaken, inBuilding, admitGate, answerFrozen,
      Host.Outcome.next.injEq] at h <;>
    subst h <;> (repeat' split) <;>
    first
      | exact ⟨rfl, .inl rfl⟩
      | exact ⟨rfl, .inr ⟨_, rfl⟩⟩

/-- A step adds at most one response (spec/30_encoding.md R98). -/
theorem step_responses {s t : State} (h : step s = .next t) :
    t.responses = s.responses ∨ ∃ r, t.responses = s.responses ++ [r] := by
  rcases step_cases h with ⟨_, rfl⟩ | ⟨_, hb, rfl⟩ | ⟨_, _, _, rfl⟩ | ⟨_, _, _, _, _, _, _, rfl⟩ | ⟨_, _, _, _, _, _, _, he⟩
  · exact .inl rfl
  · rcases sequencerStep_cases (s := sampleReset s) hb with
      ⟨_, he⟩ | ⟨_, he⟩ | ⟨_, he⟩ | ⟨_, he⟩ | ⟨_, he⟩ | ⟨_, he⟩ | ⟨_, he⟩ <;> rw [he]
    · rcases stepEval_cases (sampleReset s) with ⟨f, _, h2⟩ | ⟨r, _, h2⟩ <;> rw [h2]
      · exact .inr ⟨_, rfl⟩
      · exact .inl rfl
    · exact .inl rfl
    · unfold stepWaitLock afterPoll; (repeat' split) <;> first | exact .inl rfl | exact .inr ⟨_, rfl⟩
    · exact .inl rfl
    · unfold stepWaitRdy1 afterPoll; (repeat' split) <;> first | exact .inl rfl | exact .inr ⟨_, rfl⟩
    · exact .inl rfl
    · unfold stepWaitRdy2 afterPoll; (repeat' split) <;> first | exact .inl rfl | exact .inr ⟨_, rfl⟩
  · exact .inl rfl
  · exact .inr ⟨_, rfl⟩
  · exact (exec_frame he).2

/-- A step that leaves the responses alone has `rsp_valid` = 0. -/
theorem responsePort_none {s t : State} (h : t.responses = s.responses) :
    rspValid s t = false ∧ responsePort s t = none := by
  simp [rspValid, responsePort, stepResponse, h]

/-- A step that responds has `rsp_valid` = 1, with that response on the port. -/
theorem responsePort_some {s t : State} {r : Response} (h : t.responses = s.responses ++ [r]) :
    rspValid s t = true ∧ responsePort s t = some (r.status.code, r.data) := by
  simp [rspValid, responsePort, stepResponse, h]

/-- After a reset no response is pending (spec/70_reset_and_hazards.md R290). -/
theorem reset_rspValid {s t : State} (hr : resetAsserted s = true) (h : step s = .next t) : rspValid s t = false := by
  obtain rfl : blockReset (sampleReset s) = t := by simpa [step, hr] using h
  exact (responsePort_none rfl).1

/-! ### Runs -/

theorem runsTo_zero {s t : State} : RunsTo 0 s t ↔ t = s := by
  constructor
  · intro h; cases h; rfl
  · rintro rfl; rfl

theorem runsTo_succ {n : Nat} {s t u : State} (h : step s = .next t) : RunsTo (n + 1) s u ↔ RunsTo n t u := by
  have : Sys2Proof.core.step s = .next t := h
  simp [RunsTo, Host.Core.run, this]

/-- A step without reset keeps what the schedule says of the later ones. -/
theorem NoReset.tail {s : State} (h : NoReset s) : ∀ b ∈ s.resetIn.tail, b = false :=
  fun b hb => h b (List.mem_of_mem_tail hb)

theorem NoReset.head {s : State} (h : NoReset s) : resetAsserted s = false := by
  unfold resetAsserted
  cases hr : s.resetIn with
  | nil => rfl
  | cons b bs => exact h b (by simp [hr])

/-- The premise holds of every later state. -/
theorem HwEventuallyReady.of_step {s t : State} (h : HwEventuallyReady s) (hs : step s = .next t) : HwEventuallyReady t :=
  fun n u hu => h (n + 1) u ((runsTo_succ hs).mpr hu)

/-! ### A FREEZE ends under the premise -/

/-- Some run from `s` reaches `FROZEN` or `FAULT`. -/
def FreezeEnds (s : State) : Prop := ∃ n t, RunsTo n s t ∧ (t.seq = .frozen ∨ t.seq = .fault)

theorem FreezeEnds.of_step {s t : State} (hs : step s = .next t) (h : FreezeEnds t) : FreezeEnds s := by
  obtain ⟨n, u, hr, hu⟩ := h
  exact ⟨n + 1, u, (runsTo_succ hs).mpr hr, hu⟩

theorem FreezeEnds.now {s : State} (h : s.seq = .frozen ∨ s.seq = .fault) : FreezeEnds s :=
  ⟨0, s, runsTo_zero.mpr rfl, h⟩

/-- A busy block without reset takes its sequencer's step. -/
theorem step_busy {s : State} (hr : NoReset s) (hb : s.seq.busy = true) :
    step s = .next (sequencerStep (sampleReset s)) := by
  simp [step, hr.head, hb]

/-- The coming answers of `PLL_LOCK` depend on its feed and the counter of reads only. -/
theorem pllLockAnswer_afterReads_congr (k : Nat) {s t : State} (hf : s.lockIn = t.lockIn) (hd : s.draws = t.draws) :
    pllLockAnswer (afterReads hwReadPllLock k s) = pllLockAnswer (afterReads hwReadPllLock k t) := by
  induction k generalizing s t with
  | zero => simp [afterReads, pllLockAnswer, hf, hd]
  | succ k ih => exact ih (by simp [hf]) (by simp [hd])

/-- The coming answers of `MCK_RDY` depend on its feed and the counter of reads only. -/
theorem mckRdyAnswer_afterReads_congr (k : Nat) {s t : State} (hf : s.rdyIn = t.rdyIn) (hd : s.draws = t.draws) :
    mckRdyAnswer (afterReads hwReadMckRdy k s) = mckRdyAnswer (afterReads hwReadMckRdy k t) := by
  induction k generalizing s t with
  | zero => simp [afterReads, mckRdyAnswer, hf, hd]
  | succ k ih => exact ih (by simp [hf]) (by simp [hd])

/-- What holds of every state that carries on: the premises of the theorem below. -/
def Ready (s : State) : Prop := NoReset s ∧ HwEventuallyReady s

/-- One poll: the action on a 1, a fault, or the same wait with the later answers and the same premises. -/
theorem poll_ends {site : Seq} {b : Bit} {done : State → State} {s u : State} (hs : Ready s)
    (hu : u.seq = s.seq) (hr : u.resetIn = s.resetIn.tail)
    (hstep : step s = .next (afterPoll site b done u))
    (hdone : b = 1#1 → Ready (done u) → FreezeEnds (done u))
    (hnd : (done u).resetIn = u.resetIn)
    (hagain : ∀ v, b ≠ 1#1 → Ready v → v.seq = s.seq → v.lockIn = u.lockIn → v.rdyIn = u.rdyIn → v.draws = u.draws →
      FreezeEnds v) : FreezeEnds s := by
  have keep : ∀ v, step s = .next v → v.resetIn = u.resetIn → Ready v := fun v hv hvr =>
    ⟨by unfold NoReset; rw [hvr, hr]; exact hs.1.tail, hs.2.of_step hv⟩
  refine FreezeEnds.of_step hstep ?_
  rcases afterPoll_cases site b done u with ⟨hb, h⟩ | ⟨_, _, h⟩ | ⟨hb, _, h⟩ | ⟨hb, _, h⟩ <;> rw [h] at hstep ⊢
  · exact hdone hb (keep _ hstep hnd)
  · exact .now (.inr rfl)
  · exact hagain _ hb (keep _ hstep rfl) hu rfl rfl rfl
  · exact hagain _ hb (keep _ hstep rfl) hu rfl rfl rfl

/-- The premises carry over to a sequencer step that keeps the sampled schedule. -/
theorem Ready.next {s t : State} (h : Ready s) (hs : step s = .next t) (hr : t.resetIn = s.resetIn.tail) : Ready t :=
  ⟨by unfold NoReset; rw [hr]; exact h.1.tail, h.2.of_step hs⟩

theorem waitRdy2_ends (s : State) (hs : Ready s) (hq : s.seq = .sWaitRdy2) : FreezeEnds s := by
  obtain ⟨k, hk⟩ := (hs.2 0 s (runsTo_zero.mpr rfl)).2 (.inr hq)
  induction k generalizing s with
  | zero =>
    refine poll_ends hs (u := hwReadMckRdy (sampleReset s)) rfl rfl
      (by simp only [step_busy hs.1 (by rw [hq]; rfl), sequencerStep, sampleReset_seq, hq]; rfl)
      (fun _ _ => .now (.inl rfl)) rfl fun v hb => absurd hk hb
  | succ k ih =>
    refine poll_ends hs (u := hwReadMckRdy (sampleReset s)) rfl rfl
      (by simp only [step_busy hs.1 (by rw [hq]; rfl), sequencerStep, sampleReset_seq, hq]; rfl)
      (fun _ _ => .now (.inl rfl)) rfl fun v _ hv h1 _ h3 h4 => ih v hv (h1.trans hq) ?_
    rw [← hk]; exact mckRdyAnswer_afterReads_congr k h3 h4

theorem writePres_ends (s : State) (hs : Ready s) (hq : s.seq = .sWritePres) : FreezeEnds s := by
  have h : step s = .next (stepWritePres (sampleReset s)) := by
    simp only [step_busy hs.1 (by rw [hq]; rfl), sequencerStep, sampleReset_seq, hq]
  exact .of_step h (waitRdy2_ends _ (hs.next h rfl) rfl)

theorem waitRdy1_ends (s : State) (hs : Ready s) (hq : s.seq = .sWaitRdy1) : FreezeEnds s := by
  obtain ⟨k, hk⟩ := (hs.2 0 s (runsTo_zero.mpr rfl)).2 (.inl hq)
  induction k generalizing s with
  | zero =>
    refine poll_ends hs (u := hwReadMckRdy (sampleReset s)) rfl rfl
      (by simp only [step_busy hs.1 (by rw [hq]; rfl), sequencerStep, sampleReset_seq, hq]; rfl)
      (fun _ h => writePres_ends _ h rfl) rfl fun v hb => absurd hk hb
  | succ k ih =>
    refine poll_ends hs (u := hwReadMckRdy (sampleReset s)) rfl rfl
      (by simp only [step_busy hs.1 (by rw [hq]; rfl), sequencerStep, sampleReset_seq, hq]; rfl)
      (fun _ h => writePres_ends _ h rfl) rfl fun v _ hv h1 _ h3 h4 => ih v hv (h1.trans hq) ?_
    rw [← hk]; exact mckRdyAnswer_afterReads_congr k h3 h4

theorem writeCss_ends (s : State) (hs : Ready s) (hq : s.seq = .sWriteCss) : FreezeEnds s := by
  have h : step s = .next (stepWriteCss (sampleReset s)) := by
    simp only [step_busy hs.1 (by rw [hq]; rfl), sequencerStep, sampleReset_seq, hq]
  exact .of_step h (waitRdy1_ends _ (hs.next h rfl) rfl)

theorem waitLock_ends (s : State) (hs : Ready s) (hq : s.seq = .sWaitLock) : FreezeEnds s := by
  obtain ⟨k, hk⟩ := (hs.2 0 s (runsTo_zero.mpr rfl)).1 hq
  induction k generalizing s with
  | zero =>
    refine poll_ends hs (u := hwReadPllLock (sampleReset s)) rfl rfl
      (by simp only [step_busy hs.1 (by rw [hq]; rfl), sequencerStep, sampleReset_seq, hq]; rfl)
      (fun _ h => writeCss_ends _ h rfl) rfl fun v hb => absurd hk hb
  | succ k ih =>
    refine poll_ends hs (u := hwReadPllLock (sampleReset s)) rfl rfl
      (by simp only [step_busy hs.1 (by rw [hq]; rfl), sequencerStep, sampleReset_seq, hq]; rfl)
      (fun _ h => writeCss_ends _ h rfl) rfl fun v _ hv h1 h2 _ h4 => ih v hv (h1.trans hq) ?_
    rw [← hk]; exact pllLockAnswer_afterReads_congr k h2 h4

theorem writePll_ends (s : State) (hs : Ready s) (hq : s.seq = .sWritePll) : FreezeEnds s := by
  have h : step s = .next (stepWritePll (sampleReset s)) := by
    simp only [step_busy hs.1 (by rw [hq]; rfl), sequencerStep, sampleReset_seq, hq]
  exact .of_step h (waitLock_ends _ (hs.next h rfl) rfl)

theorem eval_ends (s : State) (hs : Ready s) (hq : s.seq = .sEval) : FreezeEnds s := by
  have h : step s = .next (stepEval (sampleReset s)) := by
    simp only [step_busy hs.1 (by rw [hq]; rfl), sequencerStep, sampleReset_seq, hq]
  refine .of_step h ?_
  rcases stepEval_cases (sampleReset s) with ⟨f, _, h2⟩ | ⟨r, _, h2⟩ <;> rw [h2] at h ⊢
  · exact .now (.inr rfl)
  · by_cases hp : (sampleReset s).bSrc = Config.cssPll
    · exact writePll_ends _ (hs.next h rfl) (if_pos hp)
    · exact writeCss_ends _ (hs.next h rfl) (if_neg hp)

/-- Under the premise `HW_EVENTUALLY_READY`, with or without a `WAIT_LIMIT`, a FREEZE in progress ends, in `FROZEN` or in
`FAULT` (spec/60_exceptions.md R264). -/
theorem freeze_ends_of_eventuallyReady {s : State} (hr : NoReset s) (hw : HwEventuallyReady s) (hb : s.seq.busy = true) :
    FreezeEnds s := by
  cases hq : s.seq with
  | raw => simp [hq, Seq.busy] at hb
  | building => simp [hq, Seq.busy] at hb
  | frozen => exact .now (.inl hq)
  | fault => exact .now (.inr hq)
  | sEval => exact eval_ends s ⟨hr, hw⟩ hq
  | sWritePll => exact writePll_ends s ⟨hr, hw⟩ hq
  | sWaitLock => exact waitLock_ends s ⟨hr, hw⟩ hq
  | sWriteCss => exact writeCss_ends s ⟨hr, hw⟩ hq
  | sWaitRdy1 => exact waitRdy1_ends s ⟨hr, hw⟩ hq
  | sWritePres => exact writePres_ends s ⟨hr, hw⟩ hq
  | sWaitRdy2 => exact waitRdy2_ends s ⟨hr, hw⟩ hq

/-! ### A state that meets the premise -/

/-- Both feeds answer 1 for ever. -/
def AlwaysReady (s : State) : Prop := s.lockIn = ⟨[], some 1⟩ ∧ s.rdyIn = ⟨[], some 1⟩

theorem AlwaysReady.of_step {s t : State} (h : AlwaysReady s) (hs : step s = .next t) : AlwaysReady t := by
  obtain ⟨hl, hr⟩ := h
  unfold AlwaysReady
  rcases step_cases hs with ⟨_, rfl⟩ | ⟨_, hb, rfl⟩ | ⟨_, _, _, rfl⟩ | ⟨_, _, _, _, _, _, _, rfl⟩ | ⟨_, _, _, _, _, _, _, he⟩
  · exact ⟨hl, hr⟩
  · rcases sequencerStep_cases (s := sampleReset s) hb with
      ⟨_, he⟩ | ⟨_, he⟩ | ⟨_, he⟩ | ⟨_, he⟩ | ⟨_, he⟩ | ⟨_, he⟩ | ⟨_, he⟩ <;> rw [he]
    · rcases stepEval_cases (sampleReset s) with ⟨f, _, h2⟩ | ⟨r, _, h2⟩ <;> rw [h2] <;> exact ⟨hl, hr⟩
    · exact ⟨hl, hr⟩
    · unfold stepWaitLock afterPoll; (repeat' split) <;> simp [hl, hr, Feed.tail]
    · exact ⟨hl, hr⟩
    · unfold stepWaitRdy1 afterPoll; (repeat' split) <;> simp [hl, hr, Feed.tail]
    · exact ⟨hl, hr⟩
    · unfold stepWaitRdy2 afterPoll; (repeat' split) <;> simp [hl, hr, Feed.tail]
  · exact ⟨hl, hr⟩
  · exact ⟨hl, hr⟩
  · rw [(exec_frame he).1]; exact ⟨hl, hr⟩

/-- Feeds that answer 1 for ever meet the premise. -/
theorem AlwaysReady.eventuallyReady {s : State} (h : AlwaysReady s) : HwEventuallyReady s := by
  intro n
  induction n generalizing s with
  | zero =>
    rintro t ht
    rw [runsTo_zero.mp ht]
    exact ⟨fun _ => ⟨0, by simp [afterReads, pllLockAnswer, h.1]⟩, fun _ => ⟨0, by simp [afterReads, mckRdyAnswer, h.2]⟩⟩
  | succ n ih =>
    intro t ht
    cases hs : step s with
    | next u => exact ih (h.of_step hs) t ((runsTo_succ hs).mp ht)
    | fault f => exact f.casesOn
    | refused r =>
      have : Sys2Proof.core.step s = .refused r := hs
      simp [RunsTo, Host.Core.run, this] at ht

end Sys2Proof.Machine
end

