-- ==== Sys2Proof/Tests/Slice0.lean ====
section
/-! SUPPORT. Tests on fixed values, taken from spec/95_test_vectors.md or counted by hand from the spec's encodings, and a
witness for the hypotheses of every statement. -/

namespace Sys2Proof.Tests

open Sys2Proof Sys2Proof.Machine

/-! ### Well-formedness: an ill-formed term for each check -/

/-- V-REF15. -/
theorem test_wellFormed_refuses_source_3 : WellFormed Config.defaultGates (.withSource 3) = false := by decide

/-- V-GATE11, V-GATE12. -/
theorem test_wellFormed_refuses_id_out_of_range :
    WellFormed Config.defaultGates (.gateEnable .low 32) = false ∧
    WellFormed Config.defaultGates (.gateDisable .high 11) = false ∧
    WellFormed Config.defaultGates (.gateStatus .high 31) = false := by decide

theorem test_wellFormed_admits_the_ends :
    WellFormed Config.defaultGates (.gateEnable .low 31) = true ∧
    WellFormed Config.defaultGates (.gateEnable .high 32) = true ∧
    WellFormed Config.defaultGates (.withSource 2) = true := by decide

/-- Parameters outside their domain: a zero frequency, no 12,000,000 Hz, a zero limit, overlapping ranges, a range of 33 IDs. -/
theorem test_params_wf :
    Config.defaultParams.wf = true ∧
    (Params.mk #v[some 0, some 12000000, none, none, none, none, none, none] none Config.defaultGates).wf = false ∧
    (Params.mk #v[some 1000000, none, none, none, none, none, none, none] none Config.defaultGates).wf = false ∧
    (Params.mk #v[none, none, none, none, none, none, none, some 12000000] (some 1) Config.defaultGates).wf = true ∧
    ({ Config.defaultParams with waitLimit := some 0 } : Params).wf = false ∧
    ({ Config.defaultParams with gates := ⟨⟨0, 31⟩, ⟨31, 62⟩⟩ } : Params).wf = false ∧
    ({ Config.defaultParams with gates := ⟨⟨0, 32⟩, ⟨33, 63⟩⟩ } : Params).wf = false := by decide

/-! ### Decoding: words written from spec/30_encoding.md R96, R105 -/

/-- One word per row: opcode digit, then the operand word. -/
theorem test_decode_each_row :
    decodeTableWord 40 0x100000000 = some .constrain ∧
    decodeTableWord 40 0x2000F4240 = some (.withTargetFrequency 1000000) ∧
    decodeTableWord 40 0x300000001 = some (.withSource 1) ∧
    decodeTableWord 40 0x400000000 = some .freeze ∧
    decodeTableWord 40 0x50000001F = some (.gateEnable .low 31) ∧
    decodeTableWord 40 0x600000064 = some (.gateDisable .high 36) ∧
    decodeTableWord 40 0x70000007F = some (.gateStatus .high 63) := by decide

theorem test_decode_each_accessor :
    decodeTableWord 40 0x800000000 = some .clockSource ∧
    decodeTableWord 40 0x900000000 = some .slowClockFreq ∧
    decodeTableWord 40 0xA00000000 = some .mainOscFreq ∧
    decodeTableWord 40 0xB00000000 = some .pllRatio ∧
    decodeTableWord 40 0xC00000000 = some .masterClockFreq ∧
    decodeTableWord 40 0xD00000000 = some .appliedPrescaler := by decide

/-- V-REF12 to V-REF16, V-GATE11 to V-GATE13, V-ACC9, each with its reason. -/
theorem test_decode_rejects_by_name :
    decode Config.defaultGates 0x000000000 = .error .reservedOpcode ∧
    decode Config.defaultGates 0xE00000000 = .error .reservedOpcode ∧
    decode Config.defaultGates 0xFFFFFFFFF = .error .reservedOpcode ∧
    decode Config.defaultGates 0x100000001 = .error .mustBeZero ∧
    decode Config.defaultGates 0x480000000 = .error .mustBeZero ∧
    decode Config.defaultGates 0xC00000001 = .error .mustBeZero ∧
    decode Config.defaultGates 0x300000004 = .error .mustBeZero ∧
    decode Config.defaultGates 0x300000003 = .error .reservedSource ∧
    decode Config.defaultGates 0x500000080 = .error .mustBeZero ∧
    decode Config.defaultGates 0x500000020 = .error .idOutOfRange ∧
    decode Config.defaultGates 0x50000004B = .error .idOutOfRange := by decide

/-- A word above 36 bits is no command word. -/
theorem test_decode_refuses_37_bits : decodeTableWord 40 0x1100000000 = none := by decide

theorem test_encode_words :
    encode .constrain = 0x100000000 ∧ encode (.withTargetFrequency 12000000) = 0x200B71B00 ∧
    encode (.withSource 2) = 0x300000002 ∧ encode .freeze = 0x400000000 ∧
    encode (.gateEnable .low 11) = 0x50000000B ∧ encode (.gateDisable .high 36) = 0x600000064 ∧
    encode (.gateStatus .high 63) = 0x70000007F ∧ encode .appliedPrescaler = 0xD00000000 := by decide

/-- No two rows of the opcode map overlap: they differ in an opcode bit that both masks keep. -/
theorem test_rows_do_not_overlap :
    opcodeMap.Pairwise fun a b => a.1 &&& a.2 &&& b.2 ≠ b.1 &&& a.2 &&& b.2 := by decide

/-! ### The assembler: the table of spec/30_encoding.md R105 -/

theorem test_assemble_operands :
    assembleLine Config.defaultGates "with_target_frequency 1,000,000".toList = .word 0x2000F4240 ∧
    assembleLine Config.defaultGates "with_target_frequency 0xB71B00".toList = .word 0x200B71B00 ∧
    assembleLine Config.defaultGates "with_source pll".toList = .word 0x300000002 ∧
    assembleLine Config.defaultGates "gate_disable 1 36".toList = .word 0x600000064 ∧
    assembleLine Config.defaultGates "master_clock_freq".toList = .word 0xC00000000 ∧
    assembleLine Config.defaultGates "# freeze".toList = .nothing := by decide

theorem test_assemble_refuses :
    assembleLine Config.defaultGates "with_source upll".toList = .refused ∧
    assembleLine Config.defaultGates "gate_enable 2 0".toList = .refused ∧
    assembleLine Config.defaultGates "gate_enable 0 32".toList = .refused ∧
    assembleLine Config.defaultGates "with_target_frequency 4294967296".toList = .refused ∧
    assembleLine Config.defaultGates "freeze 0".toList = .refused := by decide

/-! ### The configuration encoder: spec/95_test_vectors.md 1.2, 2.2 to 2.5 -/

/-- V-SRC1, V-SRC2, V-DIV6 (divisor 3), V-DIV20 (33 and above). -/
theorem test_encode_main :
    encodeConfig Config.defaultOscTable 1 true 12000000 2 = .ok ⟨12000000, 1, 0, none, 1, 12000000, 1⟩ ∧
    encodeConfig Config.defaultOscTable 1 true 1000000 2 = .ok ⟨12000000, 1, 4, none, 16, 750000, 0⟩ ∧
    encodeConfig Config.defaultOscTable 1 true 4000000 2 = .ok ⟨12000000, 1, 7, none, 3, 4000000, 0⟩ ∧
    encodeConfig Config.defaultOscTable 1 true 363636 2 = .ok ⟨12000000, 1, 6, none, 64, 187500, 0⟩ ∧
    encodeConfig Config.defaultOscTable 1 true 13000000 2 = .error .invalidFrequencyTarget ∧
    encodeConfig Config.defaultOscTable 1 true 0 2 = .error .invalidFrequencyTarget := by decide

/-- V-SRC3, V-DIV35, V-DIV45, V-DIV47. -/
theorem test_encode_slow :
    encodeConfig Config.defaultOscTable 0 false 0 2 = .ok ⟨12000000, 0, 0, none, 1, 32768, 0⟩ ∧
    encodeConfig Config.defaultOscTable 0 true 10922 2 = .ok ⟨12000000, 0, 7, none, 3, 10922, 0⟩ ∧
    encodeConfig Config.defaultOscTable 0 true 32769 2 = .error .invalidFrequencyTarget ∧
    encodeConfig Config.defaultOscTable 0 true 1000 0 = .ok ⟨4000000, 0, 5, none, 32, 1024, 0⟩ := by decide

/-- V-SRC4, V-PLL1, V-PLL5, V-PLL6, V-PLL13, V-PLL14. -/
theorem test_encode_pll :
    encodeConfig Config.defaultOscTable 2 false 0 2 = .ok ⟨12000000, 2, 0, some 2, 2, 24000000, 2⟩ ∧
    encodeConfig Config.defaultOscTable 2 true 0 2 = .ok ⟨12000000, 2, 0, some 2, 2, 24000000, 2⟩ ∧
    encodeConfig Config.defaultOscTable 2 true 17999999 2 = .ok ⟨12000000, 2, 0, some 2, 2, 24000000, 2⟩ ∧
    encodeConfig Config.defaultOscTable 2 true 18000000 2 = .ok ⟨12000000, 2, 0, some 4, 4, 48000000, 4⟩ ∧
    encodeConfig Config.defaultOscTable 2 true 2141999999 2 = .ok ⟨12000000, 2, 0, some 356, 356, 4272000000, 356⟩ ∧
    encodeConfig Config.defaultOscTable 2 true 2142000000 2 = .error .frequencyOverflow := by decide

/-- V-PLL22 and V-PLL24: the upper clamp, reached only with a slow oscillator. -/
theorem test_encode_pll_upper_clamp :
    encodeConfig #v[some 1000000, none, none, none, none, none, none, none] 2 true 4000000000 0 =
      .ok ⟨1000000, 2, 0, some 2048, 2048, 2048000000, 2048⟩ ∧
    encodeConfig #v[some 1000000, none, none, none, none, none, none, none] 2 true 1023499999 0 =
      .ok ⟨1000000, 2, 0, some 2046, 2046, 2046000000, 2046⟩ := by decide

/-- The `PLL_CTRL` values of spec/30_encoding.md R102, and V-PLL6, V-PLL12, V-PLL17. -/
theorem test_pllCtrlValue :
    pllCtrlValue 2 2 = 0x00202 ∧ pllCtrlValue 14 2 = 0x00E02 ∧ pllCtrlValue 2048 2 = 0x80002 ∧
    pllCtrlValue 4 2 = 0x00402 ∧ pllCtrlValue 356 2 = 0x16402 ∧ pllCtrlValue 42 2 = 0x02A02 := by decide

/-- V-OSC1 to V-OSC3. -/
theorem test_encode_class_first :
    encodeConfig Config.defaultOscTable 0 false 0 5 = .error .unsupportedOscillatorReading ∧
    encodeConfig Config.defaultOscTable 0 true 40000 5 = .error .unsupportedOscillatorReading := by decide

/-! ### Small states -/

/-- A clock hardware that holds zeros. -/
def quietHw : HwSide := { css := 0, pres := 0, pllMul := 0, pllDiv := 0, gateSt0 := 0, gateSt1 := 0x00000010 }

/-- A state like the one after reset, in the sequencer state `q`. -/
def stateAt (q : Seq) : State := { State.reset with seq := q, hw := quietHw }

/-- A feed with one answer. -/
def oneAnswer {w : Nat} (v : BitVec w) : Feed w := ⟨[v], none⟩

/-- The write of `PLL_CTRL` of V-PLL11: the packed value in the access and in the hardware. -/
theorem test_stepWritePll_value :
    ∃ t, step { stateAt .sWritePll with bSrc := 2, enc := ⟨12000000, 2, 0, 14, 14, 168000000, 14⟩ } = .next t ∧
      t.trace = [.wr (.pllCtrl 14 2)] ∧ (HwWrite.pllCtrl 14 2).pllCtrlBits = some 0x00E02 ∧ t.hw.pllCtrl = 0x00E02 :=
  ⟨_, rfl, by decide⟩

/-! ### Commands, one step each: spec/95_test_vectors.md 2.1, 2.7 to 2.9 -/

/-- V-BLD1. -/
theorem test_step_constrain :
    ∃ t, step ((stateAt .raw).withFetchWord 40 0x100000000) = .next t ∧
      t.seq = .building ∧ t.responses = [⟨.ok, 0⟩] ∧ t.cmdIn = [] := ⟨_, rfl, by decide⟩

/-- The response port: up in a step that responds (V-REF4), down in one of a busy FREEZE and in a reset. -/
theorem test_responsePort :
    (∃ t, step { stateAt .building with cmdIn := [0x100000000], responses := [⟨.ok, 0⟩] } = .next t ∧
      responsePort { stateAt .building with cmdIn := [0x100000000], responses := [⟨.ok, 0⟩] } t = some (0xA, 0)) ∧
    (∃ t, step { stateAt .sWriteCss with responses := [⟨.ok, 0⟩] } = .next t ∧
      rspValid { stateAt .sWriteCss with responses := [⟨.ok, 0⟩] } t = false) ∧
    ∃ t, step { stateAt .frozen with resetIn := [true], responses := [⟨.ok, 0⟩] } = .next t ∧
      rspValid { stateAt .frozen with resetIn := [true], responses := [⟨.ok, 0⟩] } t = false :=
  ⟨⟨_, rfl, by decide⟩, ⟨_, rfl, by decide⟩, ⟨_, rfl, by decide⟩⟩

/-- V-BLD2, V-BLD3. -/
theorem test_withTargetFrequency :
    ∃ t, exec (.withTargetFrequency 0) (stateAt .building) = .next t ∧ t.bTgt = 0 ∧ t.bTv = true ∧ t.bSrc = 0 :=
  ⟨_, rfl, by decide⟩

/-- V-BLD6. -/
theorem test_withSource_last_call_wins :
    ∃ t, exec (.withSource 1) { stateAt .building with bSrc := 2 } = .next t ∧ t.bSrc = 1 ∧ t.bTv = false :=
  ⟨_, rfl, by decide⟩

/-- V-REF1: the first word after reset, refused in `RAW`. -/
theorem test_step_freeze_in_raw :
    ∃ t, step (State.reset.withFetchWord 40 0x400000000) = .next t ∧ t.responses = [⟨.refNotConstrained, 0⟩] ∧ t.seq = .raw :=
  ⟨_, rfl, rfl, rfl⟩

/-- V-REF12, V-REF15: decode before state. -/
theorem test_step_reserved_in_raw :
    ∃ t, step ((stateAt .raw).withFetchWord 40 0x300000003) = .next t ∧ t.responses = [⟨.refIllegalCommand, 0⟩] :=
  ⟨_, rfl, rfl⟩

/-- V-ACC5: the prescaler 3, not the code 7; V-REF5: no record. -/
theorem test_appliedPrescaler :
    (∃ t, exec .appliedPrescaler { stateAt .frozen with record := { RecRegs.reset with applied := 3 } } = .next t ∧
      t.responses = [⟨.ok, 3⟩]) ∧
    ∃ t, exec .appliedPrescaler (stateAt .building) = .next t ∧ t.responses = [⟨.refNoRecord, 0⟩] :=
  ⟨⟨_, rfl, rfl⟩, ⟨_, rfl, rfl⟩⟩

/-- V-GATE1: bit 11 of the low instance. -/
theorem test_gateEnable :
    ∃ t, exec (.gateEnable .low 11) (stateAt .building) = .next t ∧
      t.hw.gateSt0 = 0x00000800 ∧ t.trace = [.wr (.gateEn .low 0x00000800)] ∧ t.hw.gateSt1 = 0x00000010 :=
  ⟨_, rfl, by decide⟩

/-- V-GATE9: bit 4 of the high instance. -/
theorem test_gateDisable :
    ∃ t, exec (.gateDisable .high 36) (stateAt .fault) = .next t ∧
      t.hw.gateSt1 = 0 ∧ t.trace = [.wr (.gateDis .high 0x00000010)] := ⟨_, rfl, by decide⟩

/-- V-GATE3 and V-GATE15. -/
theorem test_gateStatus :
    (∃ t, exec (.gateStatus .high 36) (stateAt .frozen) = .next t ∧
      t.responses = [⟨.ok, 1⟩] ∧ t.trace = [.rd (.gateSt .high 0x00000010)]) ∧
    ∃ t, exec (.gateStatus .high 36) (stateAt .raw) = .next t ∧ t.responses = [⟨.refNotConstrained, 0⟩] :=
  ⟨⟨_, rfl, by decide⟩, ⟨_, rfl, rfl⟩⟩

/-! ### Steps of the sequencer: spec/95_test_vectors.md 2.6 -/

/-- Program P1, step S_EVAL. -/
theorem test_stepEval :
    ∃ t, step { stateAt .sEval with bSrc := 1, bTv := true, bTgt := 1000000, oscIn := oneAnswer 2 } = .next t ∧
      t.seq = .sWriteCss ∧ t.enc = ⟨12000000, 1, 4, 0, 16, 750000, 0⟩ ∧ t.trace = [.rd (.oscClass 2)] :=
  ⟨_, rfl, by decide⟩

/-- V-SEQ12. -/
theorem test_stepEval_unsupported_class :
    ∃ t, step { stateAt .sEval with oscIn := oneAnswer 6 } = .next t ∧
      statusPorts t = (10, 2, 2, 0) ∧ t.responses = [⟨.errUnsupportedOscillatorReading, 0⟩] := ⟨_, rfl, by decide⟩

/-- V-SEQ5. -/
theorem test_stepWaitLock_timeout :
    ∃ t, step { stateAt .sWaitLock with
        bSrc := 2, progress := 1, lockIn := oneAnswer 0, params := { Config.defaultParams with waitLimit := some 1 } } = .next t ∧
      statusPorts t = (10, 3, 4, 1) ∧ t.trace = [.rd (.pllLock 0)] := ⟨_, rfl, by decide⟩

/-- P5: the second of three polls counts. -/
theorem test_stepWaitRdy2_counts :
    ∃ t, step { stateAt .sWaitRdy2 with
        waitCnt := 1, rdyIn := oneAnswer 0, params := { Config.defaultParams with waitLimit := some 3 } } = .next t ∧
      t.seq = .sWaitRdy2 ∧ t.waitCnt = 2 := ⟨_, rfl, by decide⟩

/-- V-REF17: a held word. -/
theorem test_busy_holds_the_word :
    ∃ t, step { stateAt .sWriteCss with cmdIn := [0x100000000] } = .next t ∧ t.cmdIn = [0x100000000] ∧ t.responses = [] :=
  ⟨_, rfl, by decide⟩

/-! ### Witnesses: the hypotheses of each statement, met together -/

theorem witness_DecodeOfEncodeIsTheCommand : WellFormed Config.defaultGates (.gateStatus .high 63) = true := by decide

theorem witness_DecodedWordIsItsEncoding : decode Config.defaultGates 0x70000007F = .ok (.gateStatus .high 63) := by decide

theorem witness_AssemblerEmitsOnlyCommands :
    assembleLine Config.defaultGates "gate_enable 0 31".toList = .word 0x50000001F := by decide

theorem witness_StepRunsThePresentedCommand :
    ∃ s w rest i, resetAsserted s = false ∧ s.seq.busy = false ∧ s.cmdIn = w :: rest ∧ decode s.params.gates w = .ok i :=
  ⟨{ stateAt .frozen with cmdIn := [0x800000000] }, 0x800000000, [], .clockSource, by decide⟩

/-- Each kind (a) to (f) of reserved word, at the boundary of its field. -/
theorem witness_reserved_words :
    (ReservedWord Config.defaultGates 0x0FFFFFFFF ∧ ReservedWord Config.defaultGates 0xE00000000 ∧
      ReservedWord Config.defaultGates 0xD00000001 ∧ ReservedWord Config.defaultGates 0x300000004) ∧
    ReservedWord Config.defaultGates 0x300000003 ∧ ReservedWord Config.defaultGates 0x700000080 ∧
      ReservedWord Config.defaultGates 0x500000020 ∧ ReservedWord Config.defaultGates 0x50000005F :=
  ⟨⟨by decide, by decide, by decide, by decide⟩, by decide, by decide, by decide, by decide⟩

theorem witness_EveryWordIsOneCommandOrReserved :
    ¬ ReservedWord Config.defaultGates 0x50000001F ∧ ¬ ReservedWord Config.defaultGates 0x500000060 := by
  decide

theorem witness_ReservedWordsAreRefused :
    ∃ s r : State, (resetAsserted s = false ∧ s.cmdIn = [0xE00000000] ∧ s.seq.busy = false ∧
        ReservedWord s.params.gates 0xE00000000) ∧
      (resetAsserted r = false ∧ r.cmdIn = [0xE00000000] ∧ r.seq.busy = true ∧ ReservedWord r.params.gates 0xE00000000 ∧
        ∃ t, step r = .next t) := by
  refine ⟨{ stateAt .raw with cmdIn := [0xE00000000] }, { stateAt .sWriteCss with cmdIn := [0xE00000000] }, ?_, ?_⟩
  · decide
  · exact ⟨rfl, rfl, rfl, by decide, _, rfl⟩

/-- A step that stays busy, and one that ends the FREEZE. -/
theorem witness_BusyBlockTakesNoCommand :
    (∃ s t, resetAsserted s = false ∧ s.seq.busy = true ∧ step s = .next t ∧ t.seq.busy = true) ∧
    ∃ s t, resetAsserted s = false ∧ s.seq.busy = true ∧ step s = .next t ∧ t.seq.busy = false :=
  ⟨⟨stateAt .sWriteCss, _, rfl, rfl, rfl, rfl⟩, ⟨{ stateAt .sWaitRdy2 with rdyIn := oneAnswer 1 }, _, rfl, rfl, rfl, rfl⟩⟩

theorem witness_ClockHardwareFollowsTheTrace :
    ∃ s t, step s = .next t ∧ t.trace = s.trace ++ [.wr (.gateEn .high 1)] :=
  ⟨{ stateAt .building with cmdIn := [0x500000060] }, _, rfl, by decide⟩

theorem witness_ParametersNeverChange : ∃ t, RunsTo 2 { stateAt .building with cmdIn := [0x400000000] } t := ⟨_, rfl⟩

theorem witness_builder_commands :
    (stateAt .raw).seq = .raw ∧ (stateAt .building).seq = .building ∧ (stateAt .frozen).seq = .frozen ∧
    (stateAt .fault).seq = .fault ∧ (stateAt .fault).seq.busy = false ∧ (2#2 ≠ 3#2) := by decide

theorem witness_UnsupportedClassFaultsFirst :
    oscLookup Config.defaultOscTable 3 = none ∧ oscLookup Config.defaultOscTable 0 = some 4000000 ∧
    oscTablePositive Config.defaultOscTable = true ∧
    ∃ f, encodeConfig Config.defaultOscTable 0 false 0 0 = .ok f := ⟨by decide, by decide, by decide, _, rfl⟩

theorem witness_UnsetTargetIsTheNaturalFrequency : oscLookup Config.defaultOscTable 2 = some 12000000 := by decide

/-- Both sources, at both ends of each clause: targets 0, 1, the source frequency, and one above it. -/
theorem witness_DivisorPathValidatesTheTarget :
    oscLookup Config.defaultOscTable 2 = some 12000000 ∧
    ((1#2 = 0 ∧ 12000000 = 32768) ∨ (1#2 = 1 ∧ 12000000 = (12000000#32).toNat)) ∧
    encodeConfig Config.defaultOscTable 1 true 0 2 = .error .invalidFrequencyTarget ∧
    encodeConfig Config.defaultOscTable 1 true 12000001 2 = .error .invalidFrequencyTarget ∧
    (∃ f, encodeConfig Config.defaultOscTable 1 true 1 2 = .ok f) ∧
    (∃ f, encodeConfig Config.defaultOscTable 1 true 12000000 2 = .ok f ∧ f.pres = 0 ∧ f.applied = 1) ∧
    ∃ f, encodeConfig Config.defaultOscTable 0 true 32768 2 = .ok f :=
  ⟨by decide, by decide, by decide, by decide, ⟨_, rfl⟩, ⟨_, rfl, by decide⟩, _, rfl⟩

/-- Every row of the table, at both of its ends. -/
theorem witness_PrescalerTableIsExact :
    [1, 2, 3, 4, 5, 8, 9, 16, 17, 32, 33, 12000000].map presTable =
      [(0, 1), (1, 2), (7, 3), (2, 4), (3, 8), (3, 8), (4, 16), (4, 16), (5, 32), (5, 32), (6, 64), (6, 64)] := by decide

theorem witness_DivisorPathResults :
    oscLookup Config.defaultOscTable 2 = some 12000000 ∧
    ∃ f, encodeConfig Config.defaultOscTable 0 true 10922 2 = .ok f ∧ f.mck = 10922 := ⟨by decide, _, rfl, by decide⟩

/-- The quotients 0 and 1 on both sides of the tie at one half; the clamp on both sides of 1024. -/
theorem witness_PllMultiplierIsClamped :
    pllQuotient 5999999 12000000 = 0 ∧ pllQuotient 6000000 12000000 = 1 ∧ pllQuotient 1024000000 1000000 = 1024 ∧
    pllQuotient 1024500000 1000000 = 1025 ∧ pllMultiplier 1024000000 1000000 = 2048 := by decide

/-- The last product that fits, and the first that does not. -/
theorem witness_PllPathResults :
    oscLookup Config.defaultOscTable 2 = some 12000000 ∧ 0 < (12000000#32).toNat ∧
    12000000 * pllMultiplier 2141999999 12000000 < 2 ^ 32 ∧ 2 ^ 32 ≤ 12000000 * pllMultiplier 2142000000 12000000 := by decide

/-- Each of the four kinds of answer. -/
theorem witness_EncoderFaultsBelongToTheirPath :
    encodeConfig Config.defaultOscTable 0 true 40000 5 = .error .unsupportedOscillatorReading ∧
    encodeConfig Config.defaultOscTable 1 true 12000001 2 = .error .invalidFrequencyTarget ∧
    encodeConfig #v[some 0, none, none, none, none, none, none, none] 1 false 0 0 = .error .invalidFrequencyTarget ∧
    encodeConfig Config.defaultOscTable 2 true 2142000000 2 = .error .frequencyOverflow := by decide

theorem witness_EvalStepFaultsOrStages :
    (∃ s e, resetAsserted s = false ∧ s.seq = .sEval ∧
      encodeConfig s.params.oscTable s.bSrc s.bTv s.bTgt (oscClassAnswer s) = .error e) ∧
    ∃ s f, resetAsserted s = false ∧ s.seq = .sEval ∧ s.bSrc = 2 ∧
      encodeConfig s.params.oscTable s.bSrc s.bTv s.bTgt (oscClassAnswer s) = .ok f :=
  ⟨⟨{ stateAt .sEval with oscIn := oneAnswer 3 }, _, rfl, rfl, rfl⟩,
    ⟨{ stateAt .sEval with bSrc := 2, oscIn := oneAnswer 2 }, _, rfl, rfl, rfl, rfl⟩⟩

theorem witness_write_steps :
    (resetAsserted (stateAt .sWritePll) = false ∧ (stateAt .sWritePll).seq = .sWritePll) ∧
    (resetAsserted (stateAt .sWriteCss) = false ∧ (stateAt .sWriteCss).seq = .sWriteCss) ∧
    (resetAsserted (stateAt .sWritePres) = false ∧ (stateAt .sWritePres).seq = .sWritePres) := by decide

/-- A wait at the limit, below it, and without one. -/
def waiting (q : Seq) (limit : Option Nat) (b : Bit) : State :=
  { stateAt q with lockIn := oneAnswer b, rdyIn := oneAnswer b, params := { Config.defaultParams with waitLimit := limit } }

/-- The four clauses of the three poll statements. -/
theorem witness_poll_steps :
    ∀ q ∈ [Seq.sWaitLock, .sWaitRdy1, .sWaitRdy2],
      (resetAsserted (waiting q none 1) = false ∧ (waiting q none 1).seq = q ∧
        pllLockAnswer (waiting q none 1) = 1#1 ∧ mckRdyAnswer (waiting q none 1) = 1#1) ∧
      (pllLockAnswer (waiting q (some 1) 0) ≠ 1#1 ∧ mckRdyAnswer (waiting q (some 1) 0) ≠ 1#1 ∧
        (waiting q (some 1) 0).params.waitLimit = some ((waiting q (some 1) 0).waitCnt + 1)) ∧
      (pllLockAnswer (waiting q none 0) ≠ 1#1 ∧ mckRdyAnswer (waiting q none 0) ≠ 1#1 ∧
        (waiting q none 0).params.waitLimit = none) ∧
      (pllLockAnswer (waiting q (some 2) 0) ≠ 1#1 ∧ mckRdyAnswer (waiting q (some 2) 0) ≠ 1#1 ∧
        (waiting q (some 2) 0).params.waitLimit = some 2 ∧ 2 ≠ (waiting q (some 2) 0).waitCnt + 1) := by decide

theorem witness_SeqMovesOnlyAlongTheTransitions :
    ∃ s t, resetAsserted s = false ∧ step s = .next t ∧ s.seq = .raw ∧ t.seq = .building :=
  ⟨{ stateAt .raw with cmdIn := [0x100000000] }, _, rfl, rfl, rfl, rfl⟩

theorem witness_AtMostOneFreezeBetweenResets :
    (∃ s u, exec .freeze s = .next u ∧ u.seq ≠ s.seq) ∧
    ∃ s t u, NoReset s ∧ s.seq ≠ .raw ∧ s.seq ≠ .building ∧ RunsTo 1 s t ∧ exec .freeze t = .next u :=
  ⟨⟨stateAt .building, _, rfl, by decide⟩, ⟨stateAt .sWriteCss, _, _, by decide, by decide, by decide, rfl, rfl⟩⟩

/-- Each of the five clauses. -/
theorem witness_NoWriteBeforeItsWaitIsOver :
    (∃ t, step (waiting .sWaitRdy1 none 1) = .next t ∧ t.seq = .sWritePres) ∧
    (∃ t, step (waiting .sWaitRdy2 none 1) = .next t ∧ t.seq = .frozen) ∧
    (∃ t, step { waiting .sWaitLock none 1 with bSrc := 2 } = .next t ∧ t.seq = .sWriteCss) ∧
    (∃ t, step (stateAt .sWriteCss) = .next t ∧ t.seq = .sWaitRdy1) ∧
    (∃ t, step (stateAt .sWritePres) = .next t ∧ t.seq = .sWaitRdy2) :=
  ⟨⟨_, rfl, rfl⟩, ⟨_, rfl, rfl⟩, ⟨_, rfl, rfl⟩, ⟨_, rfl, rfl⟩, ⟨_, rfl, rfl⟩⟩

theorem witness_UnboundedWaitHangs :
    ∃ s : State, NoReset s ∧ s.params.waitLimit = none ∧ s.seq = .sWaitRdy1 ∧ s.rdyIn = ⟨[], some 0⟩ ∧ s.lockIn = ⟨[], some 0⟩ :=
  ⟨{ stateAt .sWaitRdy1 with rdyIn := ⟨[], some 0⟩, lockIn := ⟨[], some 0⟩ }, by decide, rfl, rfl, rfl, rfl⟩

theorem witness_accessors :
    (stateAt .frozen).seq = .frozen ∧ Instr.pllRatio ∈ [Instr.clockSource, .pllRatio] ∧ NoReset (stateAt .frozen) ∧
    ∃ t, RunsTo 1 { stateAt .frozen with cmdIn := [0x400000000] } t := ⟨rfl, by decide, by decide, _, rfl⟩

/-- Both instances, at an end of each range, and a peripheral outside. -/
theorem witness_gate_commands :
    (stateAt .building).seq.busy = false ∧ (stateAt .building).seq ≠ .raw ∧
    (stateAt .building).params.gates.contains .low 31 = true ∧ (stateAt .building).params.gates.contains .high 32 = true ∧
    (stateAt .building).params.gates.contains .low 32 = false ∧ (stateAt .building).params.gates.wf = true := by decide

theorem witness_GatesAreIndependentOfTheClock :
    (∃ t, exec (.gateEnable .low 0) (stateAt .building) = .next t) ∧ (∃ t, exec .freeze (stateAt .building) = .next t) ∧
    ∃ t, step (stateAt .sWriteCss) = .next t := ⟨⟨_, rfl⟩, ⟨_, rfl⟩, ⟨_, rfl⟩⟩

theorem witness_AdmissionTable :
    (∃ t, WellFormed (stateAt .sEval).params.gates .freeze = true ∧ exec .freeze (stateAt .sEval) = .next t) ∧
    ∃ t, WellFormed (stateAt .raw).params.gates .constrain = true ∧ exec .constrain (stateAt .raw) = .next t :=
  ⟨⟨_, rfl, rfl⟩, ⟨_, rfl, rfl⟩⟩

theorem witness_RefusalsChangeNothing :
    ∃ s t r, step s = .next t ∧ t.responses = s.responses ++ [r] ∧ 8 ≤ r.status.code.toNat :=
  ⟨{ stateAt .frozen with cmdIn := [0x400000000] }, _, ⟨.refBuilderConsumed, 0⟩, rfl, rfl, by decide⟩

theorem witness_FaultEntryIsPrecise : ∃ s t, step s = .next t ∧ t.seq = .fault ∧ s.seq ≠ .fault :=
  ⟨waiting .sWaitRdy1 (some 1) 0, _, rfl, rfl, by decide⟩

theorem witness_FaultIsSticky :
    ∃ s t, NoReset s ∧ s.seq = .fault ∧ RunsTo 1 s t := ⟨{ stateAt .fault with cmdIn := [0x100000000] }, _, by decide, rfl, rfl⟩

theorem witness_ResetClearsOnlyTheBlock :
    resetAsserted { stateAt .sWaitRdy1 with resetIn := [true] } = true := by decide

/-! ### Coherent states -/

/-- The parts of the invariant that a computation decides. -/
def coherentParts (s : State) : Bool :=
  s.params.wf && decide (s.bSrc ≠ 3) && decide (s.err ≠ 0 ↔ s.seq = .fault) && decide (s.seq ≠ .fault → s.faultSite = 0) &&
  decide (s.seq ≠ .fault → s.progress = commitProgress s.bSrc s.seq) &&
  decide (s.seq = .sWritePll ∨ s.seq = .sWaitLock → s.bSrc = Config.cssPll) &&
  decide (s.params.waitLimit = none → s.waitCnt = 0) &&
  decide (s.progress.getLsbD 0 = true →
    s.hw.pllMul = s.enc.mul ∧ s.hw.pllDiv = 2 ∧ lastPllCtrl s.trace = some (s.enc.mul, 2)) &&
  decide (s.progress.getLsbD 1 = true → s.hw.css = s.enc.css ∧ lastCss s.trace = some s.enc.css) &&
  decide (s.progress.getLsbD 2 = true → s.hw.pres = s.enc.pres ∧ lastPres s.trace = some s.enc.pres) &&
  decide (s.seq = .frozen → s.record = latchRecord s) &&
  s.trace.all fun
    | .wr w => w.legal
    | .rd _ => true

theorem coherent_of_parts {s : State} (h : coherentParts s = true) (hf : s.seq = .fault → FaultRecord s)
    (hb : ∀ n, s.params.waitLimit = some n → s.waitCnt < n) (hs : Evaluated s → Staged s) : Coherent s := by
  simp only [coherentParts, Bool.and_eq_true, decide_eq_true_eq] at h
  obtain ⟨⟨⟨⟨⟨⟨⟨⟨⟨⟨⟨h1, h2⟩, h3⟩, h4⟩, h5⟩, h6⟩, h7⟩, h8⟩, h9⟩, h10⟩, h11⟩, h12⟩ := h
  exact ⟨h1, h2, h3, h4, hf, h5, h6, hb, h7, hs, h8, h9, h10, h11, fun w hw => List.all_eq_true.mp h12 _ hw⟩

/-- Program P3 after its FREEZE: the slow source. -/
def frozenSlow : State :=
  { stateAt .frozen with
    enc := ⟨12000000, 0, 0, 0, 1, 32768, 0⟩, record := ⟨0, 32768, 12000000, 0, 32768, 1⟩, progress := 0b110,
    trace := divisorTrace 2 0 0 0 0 }

/-- Program P1 after its FREEZE: the main source with prescaler 16. -/
def frozenMain : State :=
  { stateAt .frozen with
    bSrc := 1, bTv := true, bTgt := 1000000,
    enc := ⟨12000000, 1, 4, 0, 16, 750000, 0⟩, record := ⟨1, 32768, 12000000, 0, 750000, 16⟩, progress := 0b110,
    hw := { quietHw with css := 1, pres := 4 }, trace := divisorTrace 2 1 4 1 0 }

/-- Program P2 after its FREEZE: the PLL source with multiplier 2. -/
def frozenPll : State :=
  { stateAt .frozen with
    bSrc := 2, enc := ⟨12000000, 2, 0, 2, 2, 24000000, 2⟩, record := ⟨2, 32768, 12000000, 2, 24000000, 2⟩, progress := 0b111,
    hw := { quietHw with css := 2, pllMul := 2, pllDiv := 2 }, trace := pllTrace 2 2 2 0 1 }

theorem witness_FrozenRecord :
    (Coherent frozenSlow ∧ frozenSlow.seq = .frozen ∧ frozenSlow.record.src = 0) ∧
    (Coherent frozenMain ∧ frozenMain.seq = .frozen ∧ frozenMain.record.src = 1) ∧
    (Coherent frozenPll ∧ frozenPll.seq = .frozen ∧ frozenPll.record.src = 2) := by
  refine ⟨⟨coherent_of_parts (by decide) nofun nofun fun _ => ⟨2, _, rfl, rfl⟩, rfl, rfl⟩,
    ⟨coherent_of_parts (by decide) nofun nofun fun _ => ⟨2, _, rfl, rfl⟩, rfl, rfl⟩,
    ⟨coherent_of_parts (by decide) nofun nofun fun _ => ⟨2, _, rfl, rfl⟩, rfl, rfl⟩⟩

/-- Before the prescaler write on the PLL path. -/
def beforePres : State :=
  { frozenPll with
    seq := .sWritePres, record := RecRegs.reset, progress := 0b011,
    trace := [.rd (.oscClass 2), .wr (.pllCtrl 2 2), .rd (.pllLock 1), .wr (.css 2), .rd (.mckRdy 1)] }

theorem witness_WritePresStep :
    Coherent beforePres ∧ resetAsserted beforePres = false ∧ beforePres.seq = .sWritePres ∧ beforePres.bSrc = 2 :=
  ⟨coherent_of_parts (by decide) nofun nofun fun _ => ⟨2, _, rfl, rfl⟩, rfl, rfl, rfl⟩

/-- Before the writes of `PLL_CTRL` and of `CSS`, and at the lock wait. -/
def beforePll : State :=
  { beforePres with seq := .sWritePll, progress := 0, trace := [.rd (.oscClass 2)] }

def atLock : State :=
  { beforePres with seq := .sWaitLock, progress := 1, trace := [.rd (.oscClass 2), .wr (.pllCtrl 2 2)] }

def beforeCss : State :=
  { beforePres with seq := .sWriteCss, progress := 1, trace := [.rd (.oscClass 2), .wr (.pllCtrl 2 2), .rd (.pllLock 1)] }

theorem witness_coherent_commit_steps :
    (Coherent beforePll ∧ resetAsserted beforePll = false ∧ beforePll.seq = .sWritePll) ∧
    (Coherent atLock ∧ resetAsserted atLock = false ∧ atLock.seq = .sWaitLock) ∧
    (Coherent beforeCss ∧ resetAsserted beforeCss = false ∧ beforeCss.seq = .sWriteCss) :=
  ⟨⟨coherent_of_parts (by decide) nofun nofun fun _ => ⟨2, _, rfl, rfl⟩, rfl, rfl⟩,
    ⟨coherent_of_parts (by decide) nofun nofun fun _ => ⟨2, _, rfl, rfl⟩, rfl, rfl⟩,
    ⟨coherent_of_parts (by decide) nofun nofun fun _ => ⟨2, _, rfl, rfl⟩, rfl, rfl⟩⟩

/-- Program P5: a timeout of the second ready wait. -/
def timedOut : State :=
  { stateAt .fault with
    bSrc := 1, bTv := true, bTgt := 4000000, enc := ⟨12000000, 1, 7, 0, 3, 4000000, 0⟩, progress := 0b110,
    err := 3, faultSite := 8, waitCnt := 2, params := { Config.defaultParams with waitLimit := some 3 },
    hw := { quietHw with css := 1, pres := 7 },
    trace := [.rd (.oscClass 2), .wr (.css 1), .rd (.mckRdy 1), .wr (.pres 7), .rd (.mckRdy 0), .rd (.mckRdy 0), .rd (.mckRdy 0)] }

/-- V-SEQ8: a timeout of the first ready wait, here on the PLL path with the target unset. -/
def timedOutCss : State :=
  { beforePres with
    seq := .fault, err := 3, faultSite := 6, waitCnt := 1, params := { Config.defaultParams with waitLimit := some 2 },
    trace := [.rd (.oscClass 2), .wr (.pllCtrl 2 2), .rd (.pllLock 1), .wr (.css 2), .rd (.mckRdy 0), .rd (.mckRdy 0)] }

/-- V-SEQ5: a timeout of the lock wait. -/
def timedOutLock : State :=
  { beforePres with
    seq := .fault, err := 3, faultSite := 4, progress := 0b001, params := { Config.defaultParams with waitLimit := some 1 },
    trace := [.rd (.oscClass 2), .wr (.pllCtrl 2 2), .rd (.pllLock 0)] }

theorem witness_TimeoutLeavesAPartialCommit :
    (Coherent timedOut ∧ timedOut.seq = .fault ∧ timedOut.err = 3) ∧
    (Coherent timedOutCss ∧ timedOutCss.seq = .fault ∧ timedOutCss.err = 3) ∧
    (Coherent timedOutLock ∧ timedOutLock.seq = .fault ∧ timedOutLock.err = 3) := by
  refine ⟨⟨coherent_of_parts (by decide) (fun _ => ?_) ?_ fun _ => ⟨2, _, rfl, rfl⟩, rfl, rfl⟩,
    ⟨coherent_of_parts (by decide) (fun _ => ?_) ?_ fun _ => ⟨2, _, rfl, rfl⟩, rfl, rfl⟩,
    ⟨coherent_of_parts (by decide) (fun _ => ?_) ?_ fun _ => ⟨2, _, rfl, rfl⟩, rfl, rfl⟩⟩
  · unfold FaultRecord; decide
  · rintro n ⟨⟩; decide
  · unfold FaultRecord; decide
  · rintro n ⟨⟩; decide
  · unfold FaultRecord; decide
  · rintro n ⟨⟩; decide

/-- A builder on the slow source with the FREEZE word presented; class 2, ready at each first read. -/
def readyToFreeze : State :=
  { stateAt .building with cmdIn := [0x400000000], oscIn := oneAnswer 2, rdyIn := ⟨[], some 1⟩, lockIn := ⟨[], some 1⟩ }

theorem readyToFreeze_coherent : Coherent readyToFreeze :=
  coherent_of_parts (by decide) nofun nofun fun h => absurd h (by unfold Evaluated; decide)

/-- The three sources: FREEZE, S_EVAL, then up to the last wait. -/
theorem witness_FreezeAccessSequence :
    readyToFreeze.seq = .building ∧ NoReset readyToFreeze ∧ readyToFreeze.cmdIn = [0x400000000] ∧
    decode readyToFreeze.params.gates 0x400000000 = .ok .freeze ∧
    (∃ u t, RunsTo 5 readyToFreeze u ∧ u.seq.busy = true ∧ step u = .next t ∧ t.seq = .frozen) ∧
    (∃ u t, RunsTo 5 { readyToFreeze with bSrc := 1 } u ∧ u.seq.busy = true ∧ step u = .next t ∧ t.seq = .frozen) ∧
    ∃ u t, RunsTo 7 { readyToFreeze with bSrc := 2 } u ∧ u.seq.busy = true ∧ step u = .next t ∧ t.seq = .frozen :=
  ⟨rfl, by decide, rfl, by decide, ⟨_, _, rfl, rfl, rfl, rfl⟩, ⟨_, _, rfl, rfl, rfl, rfl⟩, ⟨_, _, rfl, rfl, rfl, rfl⟩⟩

theorem witness_ConfigurationFaultLeavesHardware :
    ∃ s u t : State, Coherent s ∧ s.seq = .building ∧ NoReset s ∧ s.cmdIn = [0x400000000] ∧
      decode s.params.gates 0x400000000 = .ok .freeze ∧ RunsTo 1 s u ∧ u.seq.busy = true ∧ step u = .next t ∧
      t.seq = .fault ∧ t.err = 2 :=
  ⟨{ readyToFreeze with oscIn := oneAnswer 6 }, _, _,
    coherent_of_parts (by decide) nofun nofun (fun h => absurd h (by unfold Evaluated; decide)),
    rfl, by decide, rfl, by decide, rfl, rfl, rfl, rfl, rfl⟩

theorem witness_BoundedFreezeEnds :
    ∃ s : State, Coherent s ∧ NoReset s ∧ s.seq.busy = true ∧ s.params.waitLimit = some 1 :=
  ⟨{ stateAt .sEval with params := { Config.defaultParams with waitLimit := some 1 } },
    coherent_of_parts (by decide) nofun (by rintro n ⟨⟩; decide) (fun h => absurd h (by unfold Evaluated; decide)),
    by decide, rfl, rfl⟩

/-- The premise `HW_EVENTUALLY_READY` can hold of a busy state, and does not hold of a hang. -/
theorem witness_freeze_ends_of_eventuallyReady :
    (NoReset { readyToFreeze with seq := .sEval } ∧ HwEventuallyReady { readyToFreeze with seq := .sEval } ∧
      (Seq.sEval).busy = true) ∧
    ¬ HwEventuallyReady { stateAt .sWaitRdy1 with rdyIn := ⟨[], some 0⟩ } := by
  refine ⟨⟨by decide, AlwaysReady.eventuallyReady ⟨rfl, rfl⟩, rfl⟩, fun h => ?_⟩
  obtain ⟨k, hk⟩ := (h 0 _ rfl).2 (.inl rfl)
  have hz : ∀ (k : Nat) (s : State), s.rdyIn = ⟨[], some 0⟩ → mckRdyAnswer (afterReads hwReadMckRdy k s) = 0#1 := by
    intro k
    induction k with
    | zero => intro s hs; simp [afterReads, mckRdyAnswer, hs]
    | succ k ih => intro s hs; exact ih _ (by simp [hs, Feed.tail])
  rw [hz k _ rfl] at hk
  exact absurd hk (by decide)

theorem witness_SlowClockFreqIsConstant : Coherent frozenMain ∧ frozenMain.seq = .frozen :=
  ⟨witness_FrozenRecord.2.1.1, rfl⟩

theorem witness_StartingStatesAreCoherent : PowerOn (stateAt .raw) := ⟨by decide, rfl⟩

theorem witness_EveryStepKeepsCoherence : ∃ t, Coherent readyToFreeze ∧ step readyToFreeze = .next t :=
  ⟨_, readyToFreeze_coherent, rfl⟩

/-- From a starting state: CONSTRAIN, FREEZE, and the slow source's steps. -/
theorem witness_ReachableRecordMatchesTheHardware : ∃ s, Reachable s ∧ s.seq = .frozen :=
  ⟨_, ⟨{ readyToFreeze with seq := .raw, cmdIn := [0x100000000, 0x400000000] }, 7, ⟨by decide, rfl⟩, rfl⟩, rfl⟩

end Sys2Proof.Tests
end

/-! # Scope: one access per step (spec/00_scope.md R10, spec/20_memory.md R61, R71)

Every operation of the model is either silent (no event, no change of the clock hardware) or one of the access primitives
followed by silent operations. The relations `Silent` and `OneAccess` say this of two states, one lemma per operation says it
of the model, and a step is put together from those. -/

namespace Sys2Proof.Machine

/-- No access between `s` and `t`: no event, and the clock hardware as it was. -/
structure Silent (s t : State) : Prop where
  trace : t.trace = s.trace
  hw    : t.hw = s.hw

/-- At most one access between `s` and `t`, with the effect that the clock hardware gives it (spec/20_memory.md R71). -/
inductive OneAccess (s t : State) : Prop where
  | silent (h : Silent s t)
  | read (r : HwRead) (trace : t.trace = s.trace ++ [.rd r]) (hw : t.hw = s.hw)
  | write (w : HwWrite) (trace : t.trace = s.trace ++ [.wr w]) (hw : t.hw = s.hw.onWrite w)

/-! ### Silent operations around an access -/

theorem OneAccess.before_silent {s t u : State} (h : OneAccess s t) (hu : Silent t u) : OneAccess s u := by
  cases h with
  | silent h => exact .silent ⟨hu.trace.trans h.trace, hu.hw.trans h.hw⟩
  | read r htrace hhw => exact .read r (hu.trace.trans htrace) (hu.hw.trans hhw)
  | write w htrace hhw => exact .write w (hu.trace.trans htrace) (hu.hw.trans hhw)

theorem OneAccess.after_silent {s t u : State} (hs : Silent s t) (h : OneAccess t u) : OneAccess s u := by
  cases h with
  | silent h => exact .silent ⟨h.trace.trans hs.trace, h.hw.trans hs.hw⟩
  | read r htrace hhw => exact .read r (hs.trace ▸ htrace) (hhw.trans hs.hw)
  | write w htrace hhw => exact .write w (hs.trace ▸ htrace) (hs.hw ▸ hhw)

/-! ### Admission and the poll rule -/

/-- A word that is not taken accesses nothing (spec/42_commit_sequencer.md R180). -/
theorem whenTaken_oneAccess {s : State} {act : State → State} (h : OneAccess s (act s)) :
    OneAccess s (whenTaken s act) := by
  rcases whenTaken_cases s act with ⟨_, he⟩ | ⟨_, he⟩ <;> rw [he]
  · exact .silent ⟨rfl, rfl⟩
  · exact h

/-- A builder command that is refused accesses nothing (spec/60_exceptions.md R253). -/
theorem inBuilding_silent {s : State} {act : State → State} (h : Silent s (act s)) : Silent s (inBuilding s act) := by
  rcases inBuilding_cases s act with ⟨_, he⟩ | ⟨_, he⟩ | ⟨_, _, he⟩ <;> rw [he]
  · exact ⟨rfl, rfl⟩
  · exact h
  · exact ⟨rfl, rfl⟩

/-- An accessor accesses no hardware, whatever it answers (spec/43_record.md R216). -/
theorem answerFrozen_silent (value : RecRegs → BitVec 32) (s : State) : Silent s (answerFrozen value s) := by
  rcases answerFrozen_cases value s with ⟨_, he⟩ | ⟨_, he⟩ | ⟨_, _, he⟩ <;> rw [he] <;> exact ⟨rfl, rfl⟩

/-- A gate command that is refused accesses nothing (spec/44_clock_gate.md R234). -/
theorem admitGate_oneAccess {k : GateInst} {id : PeriphId} {s : State} {act : State → State} (h : OneAccess s (act s)) :
    OneAccess s (admitGate k id s act) := by
  rcases admitGate_cases k id s act with ⟨_, he⟩ | ⟨_, _, he⟩ | ⟨_, _, he⟩ <;> rw [he]
  · exact .silent ⟨rfl, rfl⟩
  · exact .silent ⟨rfl, rfl⟩
  · exact h

/-- What follows the read of a wait makes no access of its own (spec/42_commit_sequencer.md R178). -/
theorem afterPoll_silent {site : Seq} {b : Bit} {done : State → State} {s : State} (h : Silent s (done s)) :
    Silent s (afterPoll site b done s) := by
  rcases afterPoll_cases site b done s with ⟨_, he⟩ | ⟨_, _, he⟩ | ⟨_, _, he⟩ | ⟨_, _, he⟩ <;> rw [he]
  · exact h
  all_goals exact ⟨rfl, rfl⟩

/-! ### Commands -/

theorem execConstrain_oneAccess {s t : State} (h : execConstrain s = .next t) : OneAccess s t := by
  obtain rfl := Host.Outcome.next.inj h
  refine whenTaken_oneAccess (.silent ?_)
  split <;> exact ⟨rfl, rfl⟩

theorem execWithSource_oneAccess {src : BitVec 2} {s t : State} (h : execWithSource src s = .next t) : OneAccess s t := by
  obtain rfl := Host.Outcome.next.inj h
  refine whenTaken_oneAccess (.silent ?_)
  split
  · exact ⟨rfl, rfl⟩
  · exact inBuilding_silent ⟨rfl, rfl⟩

/-- The six accessors, by the field they answer. -/
theorem accessor_oneAccess {value : RecRegs → BitVec 32} {s t : State}
    (h : (.next (whenTaken s (answerFrozen value)) : Host.Outcome State Fault Refusal) = .next t) : OneAccess s t := by
  obtain rfl := Host.Outcome.next.inj h
  exact whenTaken_oneAccess (.silent (answerFrozen_silent value s))

/-- A command makes at most one access: the gate commands theirs, every other command none. -/
theorem exec_oneAccess {i : Instr} {s t : State} (h : exec i s = .next t) : OneAccess s t := by
  cases i with
  | constrain => exact execConstrain_oneAccess h
  | withTargetFrequency freq =>
    obtain rfl := Host.Outcome.next.inj h
    exact whenTaken_oneAccess (.silent (inBuilding_silent ⟨rfl, rfl⟩))
  | withSource src => exact execWithSource_oneAccess h
  | freeze =>
    obtain rfl := Host.Outcome.next.inj h
    exact whenTaken_oneAccess (.silent (inBuilding_silent ⟨rfl, rfl⟩))
  | gateEnable k id =>
    obtain rfl := Host.Outcome.next.inj h
    exact whenTaken_oneAccess (admitGate_oneAccess (.write (.gateEn k (gateMask s.params.gates k id)) rfl rfl))
  | gateDisable k id =>
    obtain rfl := Host.Outcome.next.inj h
    exact whenTaken_oneAccess (admitGate_oneAccess (.write (.gateDis k (gateMask s.params.gates k id)) rfl rfl))
  | gateStatus k id =>
    obtain rfl := Host.Outcome.next.inj h
    exact whenTaken_oneAccess (admitGate_oneAccess (.read (.gateSt k (s.hw.gateSt k)) rfl rfl))
  | clockSource => exact accessor_oneAccess h
  | slowClockFreq => exact accessor_oneAccess h
  | mainOscFreq => exact accessor_oneAccess h
  | pllRatio => exact accessor_oneAccess h
  | masterClockFreq => exact accessor_oneAccess h
  | appliedPrescaler => exact accessor_oneAccess h

/-! ### The sequencer -/

/-- S_EVAL reads `OSC_CLASS`, whether it faults or stages (spec/42_commit_sequencer.md R171). -/
theorem stepEval_oneAccess (s : State) : OneAccess s (stepEval s) := by
  rcases stepEval_cases s with ⟨_, _, he⟩ | ⟨_, _, he⟩ <;> rw [he] <;>
    exact .read (.oscClass (oscClassAnswer s)) rfl rfl

theorem stepWritePll_oneAccess (s : State) : OneAccess s (stepWritePll s) :=
  .write (.pllCtrl s.enc.mul Config.pllDivConst) rfl rfl

theorem stepWriteCss_oneAccess (s : State) : OneAccess s (stepWriteCss s) := .write (.css s.enc.css) rfl rfl

theorem stepWritePres_oneAccess (s : State) : OneAccess s (stepWritePres s) := .write (.pres s.enc.pres) rfl rfl

theorem hwReadMckRdy_oneAccess (s : State) : OneAccess s (hwReadMckRdy s) := .read (.mckRdy (mckRdyAnswer s)) rfl rfl

theorem stepWaitLock_oneAccess (s : State) : OneAccess s (stepWaitLock s) :=
  have hread : OneAccess s (hwReadPllLock s) := .read (.pllLock (pllLockAnswer s)) rfl rfl
  hread.before_silent (afterPoll_silent ⟨rfl, rfl⟩)

theorem stepWaitRdy1_oneAccess (s : State) : OneAccess s (stepWaitRdy1 s) :=
  (hwReadMckRdy_oneAccess s).before_silent (afterPoll_silent ⟨rfl, rfl⟩)

theorem stepWaitRdy2_oneAccess (s : State) : OneAccess s (stepWaitRdy2 s) :=
  (hwReadMckRdy_oneAccess s).before_silent (afterPoll_silent ⟨rfl, rfl⟩)

theorem sequencerStep_oneAccess {s : State} (hb : s.seq.busy = true) : OneAccess s (sequencerStep s) := by
  rcases sequencerStep_cases hb with
    ⟨_, he⟩ | ⟨_, he⟩ | ⟨_, he⟩ | ⟨_, he⟩ | ⟨_, he⟩ | ⟨_, he⟩ | ⟨_, he⟩ <;> rw [he]
  · exact stepEval_oneAccess s
  · exact stepWritePll_oneAccess s
  · exact stepWaitLock_oneAccess s
  · exact stepWriteCss_oneAccess s
  · exact stepWaitRdy1_oneAccess s
  · exact stepWritePres_oneAccess s
  · exact stepWaitRdy2_oneAccess s

/-! ### The step -/

theorem sampleReset_silent (s : State) : Silent s (sampleReset s) := ⟨rfl, rfl⟩

theorem takeWord_sampleReset_silent (s : State) : Silent s (takeWord (sampleReset s)) := ⟨rfl, rfl⟩

/-- A step makes at most one access; a reset, a wait for a word and a reserved word make none (spec/00_scope.md R10,
spec/70_reset_and_hazards.md R291). -/
theorem step_oneAccess {s t : State} (h : step s = .next t) : OneAccess s t := by
  rcases step_cases h with
    ⟨_, rfl⟩ | ⟨_, hb, rfl⟩ | ⟨_, _, _, rfl⟩ | ⟨_, _, _, _, _, _, _, rfl⟩ | ⟨_, _, _, _, _, _, _, he⟩
  case inl => exact .silent ⟨rfl, rfl⟩
  case inr.inl => exact .after_silent (sampleReset_silent s) (sequencerStep_oneAccess hb)
  case inr.inr.inl => exact .silent (sampleReset_silent s)
  case inr.inr.inr.inl => exact .silent ⟨rfl, rfl⟩
  case inr.inr.inr.inr => exact .after_silent (takeWord_sampleReset_silent s) (exec_oneAccess he)

/-- Settles O10: the one access of a step (`step_oneAccess`), by the kind of event and the register written. -/
theorem clockHardwareFollowsTheTrace : Obligations.ClockHardwareFollowsTheTrace := by
  intro s t h
  cases step_oneAccess h with
  | silent hs => exact .inl ⟨hs.trace, hs.hw⟩
  | read r htrace hhw => exact .inr (.inl ⟨r, htrace, hhw⟩)
  | write w htrace hhw =>
    refine .inr (.inr ?_)
    cases w with
    | css v => exact .inl ⟨v, htrace, hhw⟩
    | pres v => exact .inr (.inl ⟨v, htrace, hhw⟩)
    | pllCtrl m d => exact .inr (.inr (.inl ⟨m, d, htrace, hhw⟩))
    | gateEn k m =>
      cases k with
      | low => exact .inr (.inr (.inr (.inl ⟨m, htrace, hhw⟩)))
      | high => exact .inr (.inr (.inr (.inr (.inl ⟨m, htrace, hhw⟩))))
    | gateDis k m =>
      cases k with
      | low => exact .inr (.inr (.inr (.inr (.inr (.inl ⟨m, htrace, hhw⟩)))))
      | high => exact .inr (.inr (.inr (.inr (.inr (.inr ⟨m, htrace, hhw⟩)))))

end Sys2Proof.Machine

/-! # State: the invariant of the commit sequence (spec/10_state.md R25, R26, R34 to R37)

The invariant `Coherent` is looked at in three parts. What is outside the block (`Coherent.of_outside`) is no part of it; a
state that has not staged anything yet needs little of it (`coherent_of_beforeCommit`); and what the hardware and the trace
hold of the staged values is a predicate of its own (`CommitWritten`), with one lemma per write. Each operation of the model
then keeps `Coherent` by one lemma, and a step is put together from those. The laws of the record are read off the encoder's
result, which `Coherent` ties to the staged values. -/

namespace Sys2Proof.Machine

/-! ### What the encoder answers -/

/-- A configuration fault is no timeout (spec/41_encoder.md R155). -/
theorem encodeConfig_error {t : Vector (Option Freq) 8} {src : BitVec 2} {tv : Bool} {tgt : Freq} {cls : OscClass}
    {f : FaultKind} (h : encodeConfig t src tv tgt cls = .error f) : f ≠ .hardwareTimeout := by
  rcases encodeConfig_cases t src tv tgt cls with ⟨_, he⟩ | ⟨_, _, _, he⟩ | ⟨_, _, _, he⟩ <;> rw [he] at h
  · cases h; decide
  · simp only [encodePll] at h
    split at h <;> cases h; decide
  · simp only [encodeDivisor] at h
    split at h <;> cases h; decide

/-- Between even bounds the clamp of an even value is even. -/
theorem clamp_even {v lo hi : Nat} (hv : Even v) (hlo : Even lo) (hhi : Even hi) : Even (clamp v lo hi) := by
  unfold clamp; split
  · exact hlo
  · split
    · exact hhi
    · exact hv

/-- The PLL multiplier is even and within its bounds (spec/41_encoder.md R150). -/
theorem pllMultiplier_bounds (target main : Nat) :
    2 ≤ pllMultiplier target main ∧ pllMultiplier target main ≤ 2048 ∧ pllMultiplier target main % 2 = 0 := by
  obtain ⟨hlo, hhi⟩ := clamp_mem (v := 2 * pllQuotient target main) (show 2 ≤ 2048 by decide)
  exact ⟨hlo, hhi, Nat.even_iff.mp (clamp_even (even_two_mul _) (by decide) (by decide))⟩

/-- What the PLL path answers (spec/41_encoder.md R149 to R153). -/
theorem encodePll_ok {main : Freq} {target : Nat} {f : Fields} (h : encodePll main target = .ok f) :
    main.toNat * pllMultiplier target main.toNat < 2 ^ 32 ∧
    f = { main := main, css := Config.cssPll, pres := 0, mul := some (BitVec.ofNat 12 (pllMultiplier target main.toNat)),
          applied := BitVec.ofNat 12 (pllMultiplier target main.toNat),
          mck := BitVec.ofNat 32 (main.toNat * pllMultiplier target main.toNat),
          ratio := BitVec.ofNat 32 (main.toNat * pllMultiplier target main.toNat / main.toNat) } := by
  simp only [encodePll] at h
  split at h
  case isTrue => cases h
  case isFalse hfit => cases h; exact ⟨Nat.lt_of_not_le hfit, rfl⟩

/-- What the divisor path answers (spec/41_encoder.md R144 to R148, R153). -/
theorem encodeDivisor_ok {src : BitVec 2} {main : Freq} {natural target : Nat} {f : Fields}
    (h : encodeDivisor src main natural target = .ok f) :
    target ≤ natural ∧ f.main = main ∧ f.css = src ∧ f.pres = (presTable (natural / target)).1 ∧
    f.applied = (presTable (natural / target)).2 ∧ f.mck = BitVec.ofNat 32 (natural / f.applied.toNat) := by
  simp only [encodeDivisor] at h
  split at h
  case isTrue => cases h
  case isFalse hlegal =>
    cases h
    exact ⟨by omega, rfl, rfl, rfl, rfl, rfl⟩

/-- Every applied prescaler is one of the eight, and its code decodes to it (spec/41_encoder.md R146, R147). -/
theorem presTable_applied (d : Nat) :
    (presTable d).2.toNat ∈ [1, 2, 3, 4, 8, 16, 32, 64] ∧ presDecode (presTable d).1 = (presTable d).2.toNat := by
  unfold presTable
  (repeat' split) <;> decide

/-- The source-select code is the source's code, on both paths (spec/30_encoding.md R100). -/
theorem encodeConfig_css {t : Vector (Option Freq) 8} {src : BitVec 2} {tv : Bool} {tgt : Freq} {cls : OscClass}
    {f : Fields} (h : encodeConfig t src tv tgt cls = .ok f) : f.css = src := by
  rcases encodeConfig_cases t src tv tgt cls with ⟨_, he⟩ | ⟨_, _, hsrc, he⟩ | ⟨_, _, _, he⟩ <;> rw [he] at h
  · cases h
  · obtain ⟨_, rfl⟩ := encodePll_ok h
    exact hsrc.symm
  · obtain ⟨_, _, hcss, _⟩ := encodeDivisor_ok h
    exact hcss

/-! ### The staged values -/

/-- Staging the same result again changes nothing. -/
theorem stage_stage (e : EncRegs) (src : BitVec 2) (f : Fields) : (e.stage src f).stage src f = e.stage src f := by
  by_cases hsrc : src = Config.cssPll <;> cases hmul : f.mul <;> simp [EncRegs.stage, hsrc, hmul]

theorem Staged.css {s : State} (h : Staged s) : s.enc.css = s.bSrc := by
  obtain ⟨cls, f, hf, he⟩ := h
  rw [← he]
  exact encodeConfig_css hf

/-- What is staged on the PLL path with multiplier `m`: the exact product, its ratio to the main frequency, and `m` as the
control value and as the applied value (spec/41_encoder.md R149 to R153). -/
structure StagedPll (s : State) (m : Nat) : Prop where
  lower   : 2 ≤ m
  upper   : m ≤ 2048
  even    : m % 2 = 0
  main    : ∃ cls, oscLookup s.params.oscTable cls = some s.enc.main
  fits    : s.enc.main.toNat * m < 2 ^ 32
  mck     : s.enc.mck = BitVec.ofNat 32 (s.enc.main.toNat * m)
  ratio   : s.enc.ratio = BitVec.ofNat 32 (s.enc.main.toNat * m / s.enc.main.toNat)
  mul     : s.enc.mul = BitVec.ofNat 12 m
  applied : s.enc.applied = BitVec.ofNat 12 m
  pres    : s.enc.pres = 0

theorem Staged.pll {s : State} (h : Staged s) (hsrc : s.bSrc = Config.cssPll) : ∃ m, StagedPll s m := by
  obtain ⟨cls, f, hf, he⟩ := h
  rcases encodeConfig_cases s.params.oscTable s.bSrc s.bTv s.bTgt cls with
    ⟨_, hc⟩ | ⟨main, hmain, _, hc⟩ | ⟨_, _, hne, _⟩
  · rw [hc] at hf; cases hf
  · rw [hc] at hf
    obtain ⟨hfit, rfl⟩ := encodePll_ok hf
    obtain ⟨hlo, hhi, heven⟩ :=
      pllMultiplier_bounds (resolveTarget s.bTv s.bTgt (naturalFreq s.bSrc main)) main.toNat
    obtain rfl : main = s.enc.main := congrArg EncRegs.main he
    exact ⟨_, {
      lower := hlo, upper := hhi, even := heven, main := ⟨cls, hmain⟩, fits := hfit
      mck := congrArg EncRegs.mck he.symm
      ratio := congrArg EncRegs.ratio he.symm
      mul := (congrArg EncRegs.mul he.symm).trans (by simp [EncRegs.stage, hsrc])
      applied := congrArg EncRegs.applied he.symm
      pres := congrArg EncRegs.pres he.symm }⟩
  · exact absurd hsrc hne

/-- What is staged on the slow and main paths (spec/41_encoder.md R144 to R148). -/
theorem Staged.divisor {s : State} (h : Staged s) (hsrc : s.bSrc ≠ Config.cssPll) :
    resolveTarget s.bTv s.bTgt (naturalFreq s.bSrc s.enc.main) ≤ naturalFreq s.bSrc s.enc.main ∧
    s.enc.applied.toNat ∈ [1, 2, 3, 4, 8, 16, 32, 64] ∧ presDecode s.enc.pres = s.enc.applied.toNat ∧
    s.enc.mck = BitVec.ofNat 32 (naturalFreq s.bSrc s.enc.main / s.enc.applied.toNat) := by
  obtain ⟨cls, f, hf, he⟩ := h
  rcases encodeConfig_cases s.params.oscTable s.bSrc s.bTv s.bTgt cls with
    ⟨_, hc⟩ | ⟨_, _, heq, _⟩ | ⟨main, _, _, hc⟩
  · rw [hc] at hf; cases hf
  · exact absurd heq hsrc
  · rw [hc] at hf
    obtain ⟨htarget, hmain, _, hpres, happlied, hmck⟩ := encodeDivisor_ok hf
    obtain ⟨hmem, hdec⟩ :=
      presTable_applied (naturalFreq s.bSrc main / resolveTarget s.bTv s.bTgt (naturalFreq s.bSrc main))
    subst hmain
    rw [← he]
    exact ⟨htarget, by rwa [← happlied] at hmem, by rwa [← happlied, ← hpres] at hdec, hmck⟩

/-- The multiplier that the PLL step writes is legal (spec/10_state.md R28). -/
theorem Staged.pllCtrl_legal {s : State} (h : Staged s) (hsrc : s.bSrc = Config.cssPll) :
    (HwWrite.pllCtrl s.enc.mul Config.pllDivConst).legal = true := by
  obtain ⟨m, hm⟩ := h.pll hsrc
  have hmod : m % 4096 = m := Nat.mod_eq_of_lt (hm.upper.trans_lt (by decide))
  simp [HwWrite.legal, Config.pllDivConst, hm.mul, hmod, hm.lower, hm.upper, hm.even]

/-! ### The last values written -/

@[simp] theorem lastCss_append_rd (t : List HwEvent) (r : HwRead) : lastCss (t ++ [.rd r]) = lastCss t := by
  simp [lastCss]

@[simp] theorem lastPres_append_rd (t : List HwEvent) (r : HwRead) : lastPres (t ++ [.rd r]) = lastPres t := by
  simp [lastPres]

@[simp] theorem lastPllCtrl_append_rd (t : List HwEvent) (r : HwRead) :
    lastPllCtrl (t ++ [.rd r]) = lastPllCtrl t := by simp [lastPllCtrl]

/-- The last value of `CSS` after a write: its own, or the one before. -/
theorem lastCss_append_wr (t : List HwEvent) (w : HwWrite) :
    lastCss (t ++ [.wr w]) = match w with
      | .css v => some v
      | _ => lastCss t := by
  cases w <;> simp [lastCss]

/-- The last value of `PRES` after a write: its own, or the one before. -/
theorem lastPres_append_wr (t : List HwEvent) (w : HwWrite) :
    lastPres (t ++ [.wr w]) = match w with
      | .pres v => some v
      | _ => lastPres t := by
  cases w <;> simp [lastPres]

/-- The last value of `PLL_CTRL` after a write: its own, or the one before. -/
theorem lastPllCtrl_append_wr (t : List HwEvent) (w : HwWrite) :
    lastPllCtrl (t ++ [.wr w]) = match w with
      | .pllCtrl m d => some (m, d)
      | _ => lastPllCtrl t := by
  cases w <;> simp [lastPllCtrl]

/-! ### What the hardware and the trace hold of the staged values -/

/-- For each commit write that `p` says was made, the hardware holds the staged value and the trace has it as the last
one written (spec/10_state.md R25). -/
structure CommitWritten (p : BitVec 3) (s : State) : Prop where
  pll  : p.getLsbD 0 = true → s.hw.pllMul = s.enc.mul ∧ s.hw.pllDiv = 2 ∧ lastPllCtrl s.trace = some (s.enc.mul, 2)
  css  : p.getLsbD 1 = true → s.hw.css = s.enc.css ∧ lastCss s.trace = some s.enc.css
  pres : p.getLsbD 2 = true → s.hw.pres = s.enc.pres ∧ lastPres s.trace = some s.enc.pres

theorem commitWritten_zero (s : State) : CommitWritten 0 s := ⟨by simp, by simp, by simp⟩

theorem CommitWritten.read {p : BitVec 3} {s : State} (h : CommitWritten p s) (r : HwRead) :
    CommitWritten p { s with trace := s.trace ++ [.rd r] } :=
  ⟨by simpa using h.pll, by simpa using h.css, by simpa using h.pres⟩

theorem CommitWritten.write_pllCtrl {p : BitVec 3} {s : State} (h : CommitWritten p s) :
    CommitWritten (p ||| progressPll) (hwWrite (.pllCtrl s.enc.mul Config.pllDivConst) s) where
  pll _ := by simp [lastPllCtrl_append_wr, Config.pllDivConst]
  css hp := by simpa [lastCss_append_wr] using h.css (by simpa [progressPll] using hp)
  pres hp := by simpa [lastPres_append_wr] using h.pres (by simpa [progressPll] using hp)

theorem CommitWritten.write_css {p : BitVec 3} {s : State} (h : CommitWritten p s) :
    CommitWritten (p ||| progressCss) (hwWrite (.css s.enc.css) s) where
  pll hp := by simpa [lastPllCtrl_append_wr] using h.pll (by simpa [progressCss] using hp)
  css _ := by simp [lastCss_append_wr]
  pres hp := by simpa [lastPres_append_wr] using h.pres (by simpa [progressCss] using hp)

theorem CommitWritten.write_pres {p : BitVec 3} {s : State} (h : CommitWritten p s) :
    CommitWritten (p ||| progressPres) (hwWrite (.pres s.enc.pres) s) where
  pll hp := by simpa [lastPllCtrl_append_wr] using h.pll (by simpa [progressPres] using hp)
  css hp := by simpa [lastCss_append_wr] using h.css (by simpa [progressPres] using hp)
  pres _ := by simp [lastPres_append_wr]

/-- The gate registers are no part of the commit (spec/44_clock_gate.md R234). -/
theorem CommitWritten.write_gate {p : BitVec 3} {s : State} (h : CommitWritten p s) {w : HwWrite}
    (hgate : ∃ k m, w = .gateEn k m ∨ w = .gateDis k m) : CommitWritten p (hwWrite w s) := by
  have hlast : lastPllCtrl (s.trace ++ [.wr w]) = lastPllCtrl s.trace ∧ lastCss (s.trace ++ [.wr w]) = lastCss s.trace ∧
      lastPres (s.trace ++ [.wr w]) = lastPres s.trace := by
    obtain ⟨k, m, rfl | rfl⟩ := hgate <;> simp [lastPllCtrl_append_wr, lastCss_append_wr, lastPres_append_wr]
  have hhw : (s.hw.onWrite w).pllMul = s.hw.pllMul ∧ (s.hw.onWrite w).pllDiv = s.hw.pllDiv ∧
      (s.hw.onWrite w).css = s.hw.css ∧ (s.hw.onWrite w).pres = s.hw.pres := by
    obtain ⟨k, m, rfl | rfl⟩ := hgate <;> cases k <;> exact ⟨rfl, rfl, rfl, rfl⟩
  obtain ⟨hlpll, hlcss, hlpres⟩ := hlast
  obtain ⟨hmul, hdiv, hcss, hpres⟩ := hhw
  exact ⟨by simpa [hlpll, hmul, hdiv] using h.pll, by simpa [hlcss, hcss] using h.css, by simpa [hlpres, hpres] using h.pres⟩

theorem Coherent.commitWritten {s : State} (h : Coherent s) : CommitWritten s.progress s :=
  ⟨h.pllWritten, h.cssWritten, h.presWritten⟩

/-- The trace with one more write has only legal writes if that one is legal. -/
theorem legal_of_mem_append_wr {t : List HwEvent} {w : HwWrite} (h : ∀ v, HwEvent.wr v ∈ t → v.legal = true)
    (hw : w.legal = true) : ∀ v, HwEvent.wr v ∈ t ++ [.wr w] → v.legal = true := by
  intro v hv
  rcases List.mem_append.mp hv with hv | hv
  · exact h v hv
  · obtain rfl : v = w := by simpa using hv
    exact hw

/-- A read is no write. -/
theorem legal_of_mem_append_rd {t : List HwEvent} {r : HwRead} (h : ∀ v, HwEvent.wr v ∈ t → v.legal = true) :
    ∀ v, HwEvent.wr v ∈ t ++ [.rd r] → v.legal = true :=
  fun v hv => h v (by simpa using hv)

/-! ### The stages of a FREEZE -/

/-- Nothing has been staged since the last reset: `RAW`, `BUILDING`, S_EVAL. -/
def Seq.BeforeCommit (q : Seq) : Prop := q = .raw ∨ q = .building ∨ q = .sEval

/-- The staged values are in use: from the state after S_EVAL to `FROZEN`. -/
def Seq.Committing (q : Seq) : Prop := q ≠ .raw ∧ q ≠ .building ∧ q ≠ .sEval ∧ q ≠ .fault

theorem Seq.BeforeCommit.ne_fault {q : Seq} (h : q.BeforeCommit) : q ≠ .fault := by
  rcases h with rfl | rfl | rfl <;> decide

theorem commitProgress_of_beforeCommit (src : BitVec 2) {q : Seq} (h : q.BeforeCommit) : commitProgress src q = 0 := by
  rcases h with rfl | rfl | rfl <;> rfl

theorem Coherent.staged_of_committing {s : State} (h : Coherent s) (hs : s.seq.Committing) : Staged s :=
  h.staged (.inl hs)

theorem Coherent.err_eq_zero {s : State} (h : Coherent s) (hs : s.seq ≠ .fault) : s.err = 0 :=
  Decidable.not_not.mp (mt h.errIff.mp hs)

/-- A cleared counter is below every limit (spec/10_state.md R26). -/
theorem zero_lt_waitLimit {p : Params} (h : p.wf = true) (n : Nat) (hn : p.waitLimit = some n) : 0 < n := by
  simp only [Params.wf, Bool.and_eq_true, decide_eq_true_eq] at h
  obtain ⟨⟨_, hlimit⟩, _⟩ := h
  exact Nat.pos_of_ne_zero fun h0 => hlimit (h0 ▸ hn)

/-- A state that has staged nothing: no write of this FREEZE, no fault. -/
theorem coherent_of_beforeCommit {s : State} (hs : s.seq.BeforeCommit) (hparams : s.params.wf = true)
    (hsrc : s.bSrc ≠ 3) (herr : s.err = 0) (hsite : s.faultSite = 0) (hprog : s.progress = 0)
    (hbound : ∀ n, s.params.waitLimit = some n → s.waitCnt < n) (hunused : s.params.waitLimit = none → s.waitCnt = 0)
    (hwrites : ∀ w, HwEvent.wr w ∈ s.trace → w.legal = true) : Coherent s where
  params := hparams
  source := hsrc
  errIff := by simp [herr, hs.ne_fault]
  siteUnset _ := hsite
  faultRecord hf := absurd hf hs.ne_fault
  progress _ := by rw [hprog, commitProgress_of_beforeCommit s.bSrc hs]
  pllOnly hq := by rcases hs with hs | hs | hs <;> simp [hs] at hq
  waitBound := hbound
  waitUnused := hunused
  staged he := by rcases hs with hs | hs | hs <;> simp [Evaluated, hs] at he
  pllWritten := by simp [hprog]
  cssWritten := by simp [hprog]
  presWritten := by simp [hprog]
  latched hf := by rcases hs with hs | hs | hs <;> simp [hs] at hf
  writes := hwrites

/-- Settles O58: a state right after reset has staged nothing (`coherent_of_beforeCommit`). -/
theorem startingStatesAreCoherent : Obligations.StartingStatesAreCoherent := by
  have hpower : ∀ s, PowerOn s → Coherent s := by
    rintro s ⟨hwf, hs⟩
    rw [hs]
    exact coherent_of_beforeCommit (.inl rfl) hwf (show (0 : BitVec 2) ≠ 3 by decide) rfl rfl rfl
      (zero_lt_waitLimit hwf) (fun _ => rfl) nofun
  exact ⟨hpower State.reset ⟨by decide, rfl⟩, hpower⟩

/-! ### What is outside the commit -/

/-- The host's streams, the clock hardware's answers and the responses are no part of the invariant (log 1, log 5, log 6,
log 9). -/
theorem Coherent.of_outside {s t : State} (h : Coherent s)
    (ht : t = { s with
      cmdIn := t.cmdIn, resetIn := t.resetIn, responses := t.responses, oscIn := t.oscIn, lockIn := t.lockIn,
      rdyIn := t.rdyIn, draws := t.draws }) : Coherent t := by
  rw [ht]
  exact { h with }

theorem sampleReset_coherent {s : State} (h : Coherent s) : Coherent (sampleReset s) := h.of_outside rfl

theorem takeWord_coherent {s : State} (h : Coherent s) : Coherent (takeWord s) := h.of_outside rfl

theorem respond_coherent {s : State} (h : Coherent s) (c : Status) (d : BitVec 32) : Coherent (respond c d s) :=
  h.of_outside rfl

theorem refuse_coherent {s : State} (h : Coherent s) (c : Status) : Coherent (refuse c s) := h.of_outside rfl

/-- A read is recorded and changes nothing else of the invariant (spec/20_memory.md R61). -/
theorem Coherent.read {s : State} (h : Coherent s) (r : HwRead) : Coherent { s with trace := s.trace ++ [.rd r] } :=
  have hw := h.commitWritten.read r
  { h with pllWritten := hw.pll, cssWritten := hw.css, presWritten := hw.pres, writes := legal_of_mem_append_rd h.writes }

theorem hwReadOscClass_coherent {s : State} (h : Coherent s) : Coherent (hwReadOscClass s) :=
  (h.read (.oscClass (oscClassAnswer s))).of_outside rfl

theorem hwReadPllLock_coherent {s : State} (h : Coherent s) : Coherent (hwReadPllLock s) :=
  (h.read (.pllLock (pllLockAnswer s))).of_outside rfl

theorem hwReadMckRdy_coherent {s : State} (h : Coherent s) : Coherent (hwReadMckRdy s) :=
  (h.read (.mckRdy (mckRdyAnswer s))).of_outside rfl

theorem hwReadGateSt_coherent {s : State} (h : Coherent s) (k : GateInst) : Coherent (hwReadGateSt k s) :=
  h.read (.gateSt k (s.hw.gateSt k))

/-- A legal gate write touches nothing of the commit (spec/44_clock_gate.md R234). -/
theorem Coherent.write_gate {s : State} (h : Coherent s) {w : HwWrite}
    (hgate : ∃ k m, w = .gateEn k m ∨ w = .gateDis k m) (hw : w.legal = true) : Coherent (hwWrite w s) :=
  have hcw := h.commitWritten.write_gate hgate
  { h with
    pllWritten := hcw.pll, cssWritten := hcw.css, presWritten := hcw.pres
    writes := legal_of_mem_append_wr h.writes hw }

/-! ### Reset and faults -/

/-- A reset of the block, in any state (spec/70_reset_and_hazards.md R290). -/
theorem blockReset_coherent {s : State} (h : Coherent s) : Coherent (blockReset s) :=
  coherent_of_beforeCommit (.inl rfl) h.params (show (0 : BitVec 2) ≠ 3 by decide) rfl rfl rfl
    (zero_lt_waitLimit h.params) (fun _ => rfl) h.writes

theorem FaultKind.code_ne_zero (f : FaultKind) : f.code ≠ 0 := by cases f <;> decide

theorem FaultKind.code_eq_three {f : FaultKind} (h : f.code = 3) : f = .hardwareTimeout := by
  cases f <;> first | rfl | exact absurd h (by decide)

/-- Fault entry keeps the invariant where it records what spec/60_exceptions.md R251 says. -/
theorem raiseFault_coherent {s : State} {f : FaultKind} {site : BitVec 4} (h : Coherent s)
    (hrec : FaultRecord (raiseFault f site s)) (hstaged : f = .hardwareTimeout → Staged s) :
    Coherent (raiseFault f site s) :=
  { h with
    errIff := iff_of_true f.code_ne_zero rfl
    siteUnset := fun hq => absurd rfl hq
    faultRecord := fun _ => hrec
    progress := fun hq => absurd rfl hq
    pllOnly := nofun
    staged := fun
      | .inl ⟨_, _, _, hq⟩ => absurd rfl hq
      | .inr ⟨_, herr⟩ => hstaged (FaultKind.code_eq_three herr)
    latched := nofun }

/-- A configuration fault, before any write (spec/42_commit_sequencer.md R171, R183). -/
theorem evalFault_coherent {s : State} (h : Coherent s) (hs : s.seq = .sEval) {f : FaultKind} (hf : f ≠ .hardwareTimeout) :
    Coherent (raiseFault f Seq.sEval.code s) := by
  refine raiseFault_coherent h (.inl ⟨?_, rfl, ?_⟩) fun ht => absurd ht hf
  · cases f with
    | invalidFrequencyTarget => exact .inl rfl
    | unsupportedOscillatorReading => exact .inr (.inl rfl)
    | hardwareTimeout => exact absurd rfl hf
    | frequencyOverflow => exact .inr (.inr rfl)
  · have := h.progress (by simp [hs])
    simpa [hs, commitProgress] using this

/-- The wait states 4, 6 and 8 (spec/10_state.md R21). -/
def Seq.Waits (q : Seq) : Prop := q = .sWaitLock ∨ q = .sWaitRdy1 ∨ q = .sWaitRdy2

theorem Seq.Waits.committing {q : Seq} (h : q.Waits) : q.Committing := by
  rcases h with rfl | rfl | rfl <;> simp [Seq.Committing]

/-- A timeout is recorded with its wait and the writes made before it (spec/42_commit_sequencer.md R178, R183). -/
theorem timeout_coherent {s : State} (h : Coherent s) (hs : s.seq.Waits) :
    Coherent (raiseFault .hardwareTimeout s.seq.code s) := by
  obtain ⟨_, _, _, hfault⟩ := hs.committing
  have hprog := h.progress hfault
  refine raiseFault_coherent h (.inr ?_) fun _ => h.staged_of_committing hs.committing
  rcases hs with hs | hs | hs <;> rw [hs] at hprog ⊢
  · exact .inl ⟨rfl, rfl, hprog, h.pllOnly (.inr hs)⟩
  · exact .inr (.inl ⟨rfl, rfl, hprog⟩)
  · exact .inr (.inr ⟨rfl, rfl, hprog⟩)

/-! ### The sequencer -/

/-- The sequencer goes on to a state in which the same writes have been made. -/
theorem Coherent.advance {s : State} (h : Coherent s) {q : Seq} (hs : s.seq.Committing) (hq : q.Committing)
    (hprog : commitProgress s.bSrc q = commitProgress s.bSrc s.seq)
    (hpll : q = .sWritePll ∨ q = .sWaitLock → s.bSrc = Config.cssPll)
    (hlatched : q = .frozen → s.record = latchRecord s) : Coherent { s with seq := q } :=
  have ⟨_, _, _, hsf⟩ := hs
  have ⟨_, _, _, hqf⟩ := hq
  { h with
    errIff := iff_of_false (not_not.mpr (h.err_eq_zero hsf)) hqf
    siteUnset := fun _ => h.siteUnset hsf
    faultRecord := fun hf => absurd hf hqf
    progress := fun _ => (h.progress hsf).trans hprog.symm
    pllOnly := hpll
    staged := fun _ => h.staged_of_committing hs
    latched := hlatched }

/-- A commit write: the progress bit goes with the write, and the counter of the wait that follows is cleared
(spec/42_commit_sequencer.md R172, R174, R176). -/
theorem Coherent.commitWrite {s : State} (h : Coherent s) {q : Seq} {w : HwWrite} {flag : BitVec 3}
    (hs : s.seq.Committing) (hq : q.Waits) (hpll : q = .sWaitLock → s.bSrc = Config.cssPll)
    (hprog : commitProgress s.bSrc s.seq ||| flag = commitProgress s.bSrc q) (hw : w.legal = true)
    (hwritten : CommitWritten (s.progress ||| flag) (hwWrite w s)) :
    Coherent { setProgress flag (hwWrite w s) with waitCnt := 0, seq := q } :=
  have ⟨_, _, _, hsf⟩ := hs
  have ⟨_, _, _, hqf⟩ := hq.committing
  { params := h.params
    source := h.source
    errIff := iff_of_false (not_not.mpr (h.err_eq_zero hsf)) hqf
    siteUnset := fun _ => h.siteUnset hsf
    faultRecord := fun hf => absurd hf hqf
    progress := fun _ => by simpa [h.progress hsf] using hprog
    pllOnly := by rintro (rfl | rfl); exacts [by simp [Seq.Waits] at hq, hpll rfl]
    waitBound := zero_lt_waitLimit h.params
    waitUnused := fun _ => rfl
    staged := fun _ => h.staged_of_committing hs
    pllWritten := hwritten.pll
    cssWritten := hwritten.css
    presWritten := hwritten.pres
    latched := by rintro rfl; simp [Seq.Waits] at hq
    writes := legal_of_mem_append_wr h.writes hw }

/-- The encoder's result is staged, and the sequencer goes on to a state in which nothing has been written yet
(spec/42_commit_sequencer.md R171). -/
theorem Coherent.stage {s : State} (h : Coherent s) (hs : s.seq = .sEval) {cls : OscClass} {r : Fields}
    (hr : encodeConfig s.params.oscTable s.bSrc s.bTv s.bTgt cls = .ok r) {q : Seq} (hq : q.Committing)
    (hprog : commitProgress s.bSrc q = 0) (hpll : q = .sWritePll ∨ q = .sWaitLock → s.bSrc = Config.cssPll)
    (hfrozen : q ≠ .frozen) : Coherent { s with enc := s.enc.stage s.bSrc r, seq := q } :=
  have ⟨_, _, _, hqf⟩ := hq
  have hsf : s.seq ≠ .fault := by simp [hs]
  have hzero : s.progress = 0 := by simpa [hs, commitProgress] using h.progress hsf
  have hwritten : CommitWritten s.progress { s with enc := s.enc.stage s.bSrc r } := hzero ▸ commitWritten_zero _
  { h with
    errIff := iff_of_false (not_not.mpr (h.err_eq_zero hsf)) hqf
    siteUnset := fun _ => h.siteUnset hsf
    faultRecord := fun hf => absurd hf hqf
    progress := fun _ => hzero.trans hprog.symm
    pllOnly := hpll
    staged := fun _ => ⟨cls, r, hr, stage_stage s.enc s.bSrc r⟩
    pllWritten := hwritten.pll
    cssWritten := hwritten.css
    presWritten := hwritten.pres
    latched := fun hf => absurd hf hfrozen }

theorem stepEval_coherent {s : State} (h : Coherent s) (hs : s.seq = .sEval) : Coherent (stepEval s) := by
  have hread := hwReadOscClass_coherent h
  rcases stepEval_cases s with ⟨f, hf, he⟩ | ⟨r, hr, he⟩ <;> rw [he]
  · exact evalFault_coherent hread hs (encodeConfig_error hf)
  · by_cases hsrc : s.bSrc = Config.cssPll
    · rw [if_pos hsrc]
      exact hread.stage hs hr (by simp [Seq.Committing]) rfl (fun _ => hsrc) nofun
    · rw [if_neg hsrc]
      exact hread.stage hs hr (by simp [Seq.Committing]) (if_neg hsrc) nofun nofun

theorem stepWritePll_coherent {s : State} (h : Coherent s) (hs : s.seq = .sWritePll) : Coherent (stepWritePll s) := by
  have hsrc : s.bSrc = Config.cssPll := h.pllOnly (.inl hs)
  have hcommitting : s.seq.Committing := by simp [hs, Seq.Committing]
  exact h.commitWrite hcommitting (.inl rfl) (fun _ => hsrc) (by simp [hs, commitProgress, progressPll])
    ((h.staged_of_committing hcommitting).pllCtrl_legal hsrc) h.commitWritten.write_pllCtrl

theorem stepWriteCss_coherent {s : State} (h : Coherent s) (hs : s.seq = .sWriteCss) : Coherent (stepWriteCss s) := by
  have hcommitting : s.seq.Committing := by simp [hs, Seq.Committing]
  have hlegal : (HwWrite.css s.enc.css).legal = true := by
    rw [(h.staged_of_committing hcommitting).css]
    exact decide_eq_true h.source
  exact h.commitWrite hcommitting (.inr (.inl rfl)) nofun
    (by rw [hs]; simp only [commitProgress]; split <;> rfl) hlegal h.commitWritten.write_css

theorem stepWritePres_coherent {s : State} (h : Coherent s) (hs : s.seq = .sWritePres) : Coherent (stepWritePres s) :=
  h.commitWrite (by simp [hs, Seq.Committing]) (.inr (.inr rfl)) nofun
    (by rw [hs]; simp only [commitProgress]; split <;> rfl) rfl h.commitWritten.write_pres

/-- A poll keeps the invariant if the action on a 1 does (spec/42_commit_sequencer.md R178). -/
theorem afterPoll_coherent {s : State} (h : Coherent s) {site : Seq} (hs : s.seq = site) (hwait : site.Waits) {b : Bit}
    {done : State → State} (hdone : Coherent (done s)) : Coherent (afterPoll site b done s) := by
  subst hs
  rcases afterPoll_cases s.seq b done s with ⟨_, he⟩ | ⟨_, _, he⟩ | ⟨_, _, he⟩ | ⟨_, ⟨n, hn, hne⟩, he⟩ <;> rw [he]
  case inl => exact hdone
  case inr.inl => exact timeout_coherent h hwait
  case inr.inr.inl => exact h
  case inr.inr.inr =>
    refine { h with waitBound := fun m hm => ?_, waitUnused := fun hnone => ?_ }
    · obtain rfl : n = m := Option.some.inj (hn.symm.trans hm)
      have hlt := h.waitBound n hn
      show s.waitCnt + 1 < n
      omega
    · exact absurd (hn.symm.trans hnone) (by simp)

theorem stepWaitLock_coherent {s : State} (h : Coherent s) (hs : s.seq = .sWaitLock) : Coherent (stepWaitLock s) := by
  have hread := hwReadPllLock_coherent h
  have hsrc : s.bSrc = Config.cssPll := h.pllOnly (.inr hs)
  refine afterPoll_coherent hread hs (.inl rfl) (hread.advance ?_ ?_ ?_ nofun nofun)
  · simp [hs, Seq.Committing]
  · simp [Seq.Committing]
  · simp [hs, hsrc, commitProgress]

theorem stepWaitRdy1_coherent {s : State} (h : Coherent s) (hs : s.seq = .sWaitRdy1) : Coherent (stepWaitRdy1 s) := by
  have hread := hwReadMckRdy_coherent h
  refine afterPoll_coherent hread hs (.inr (.inl rfl)) (hread.advance ?_ ?_ ?_ nofun nofun)
  · simp [hs, Seq.Committing]
  · simp [Seq.Committing]
  · simp [hs, commitProgress]

/-- The record is looked at in `FROZEN` only. -/
theorem Coherent.setRecord {s : State} (h : Coherent s) (hs : s.seq ≠ .frozen) (r : RecRegs) :
    Coherent { s with record := r } :=
  { h with latched := fun hf => absurd hf hs }

theorem stepWaitRdy2_coherent {s : State} (h : Coherent s) (hs : s.seq = .sWaitRdy2) : Coherent (stepWaitRdy2 s) := by
  have hread := hwReadMckRdy_coherent h
  have hlatch := hread.setRecord (by simp [hs]) (latchRecord (hwReadMckRdy s))
  refine afterPoll_coherent hread hs (.inr (.inr rfl))
    (respond_coherent (hlatch.advance (q := .frozen) ?_ ?_ ?_ nofun fun _ => rfl) _ _)
  · simp [hs, Seq.Committing]
  · simp [Seq.Committing]
  · simp [hs, commitProgress]

theorem sequencerStep_coherent {s : State} (h : Coherent s) (hb : s.seq.busy = true) : Coherent (sequencerStep s) := by
  rcases sequencerStep_cases hb with
    ⟨hs, he⟩ | ⟨hs, he⟩ | ⟨hs, he⟩ | ⟨hs, he⟩ | ⟨hs, he⟩ | ⟨hs, he⟩ | ⟨hs, he⟩ <;> rw [he]
  · exact stepEval_coherent h hs
  · exact stepWritePll_coherent h hs
  · exact stepWaitLock_coherent h hs
  · exact stepWriteCss_coherent h hs
  · exact stepWaitRdy1_coherent h hs
  · exact stepWritePres_coherent h hs
  · exact stepWaitRdy2_coherent h hs

/-! ### Commands -/

/-- The builder's fields and its place change freely before the commit, but for the reserved source code
(spec/40_builder.md R120 to R122, spec/42_commit_sequencer.md R170). -/
theorem Coherent.setBuilder {s : State} (h : Coherent s) (hs : s.seq.BeforeCommit) {q : Seq} (hq : q.BeforeCommit)
    {src : BitVec 2} (hsrc : src ≠ 3) (tv : Bool) (tgt : Freq) :
    Coherent { s with seq := q, bSrc := src, bTv := tv, bTgt := tgt } :=
  coherent_of_beforeCommit hq h.params hsrc (h.err_eq_zero hs.ne_fault) (h.siteUnset hs.ne_fault)
    ((h.progress hs.ne_fault).trans (commitProgress_of_beforeCommit s.bSrc hs)) h.waitBound h.waitUnused h.writes

theorem whenTaken_coherent {s : State} {act : State → State} (h : Coherent s) (hact : Coherent (act s)) :
    Coherent (whenTaken s act) := by
  rcases whenTaken_cases s act with ⟨_, he⟩ | ⟨_, he⟩ <;> rw [he]
  · exact h
  · exact hact

theorem inBuilding_coherent {s : State} {act : State → State} (h : Coherent s)
    (hact : s.seq = .building → Coherent (act s)) : Coherent (inBuilding s act) := by
  rcases inBuilding_cases s act with ⟨_, he⟩ | ⟨hs, he⟩ | ⟨_, _, he⟩ <;> rw [he]
  · exact refuse_coherent h _
  · exact hact hs
  · exact refuse_coherent h _

theorem answerFrozen_coherent {s : State} (value : RecRegs → BitVec 32) (h : Coherent s) :
    Coherent (answerFrozen value s) := by
  rcases answerFrozen_cases value s with ⟨_, he⟩ | ⟨_, he⟩ | ⟨_, _, he⟩ <;> rw [he] <;> exact respond_coherent h _ _

theorem admitGate_coherent {k : GateInst} {id : PeriphId} {s : State} {act : State → State} (h : Coherent s)
    (hact : s.params.gates.contains k id = true → Coherent (act s)) : Coherent (admitGate k id s act) := by
  rcases admitGate_cases k id s act with ⟨_, he⟩ | ⟨_, _, he⟩ | ⟨hin, _, he⟩ <;> rw [he]
  · exact refuse_coherent h _
  · exact refuse_coherent h _
  · exact hact hin

/-- A legal range is at most 32 identifiers wide (spec/93_implementation_defined.md part 2). -/
theorem range_wf {p : Params} (h : p.wf = true) (k : GateInst) : (p.gates.range k).wf = true := by
  simp only [Params.wf, GateRanges.wf, Bool.and_eq_true] at h
  obtain ⟨_, ⟨hlow, hhigh⟩, _⟩ := h
  cases k
  · exact hlow
  · exact hhigh

/-- The bit of an identifier in its range is one of the 32 (spec/44_clock_gate.md R230). -/
theorem gateBit_lt {p : Params} (h : p.wf = true) {k : GateInst} {id : PeriphId} (hin : p.gates.contains k id = true) :
    gateBit p.gates k id < 32 := by
  have hwf := range_wf h k
  simp only [IdRange.wf, Bool.and_eq_true, decide_eq_true_eq] at hwf
  simp only [GateRanges.contains, Bool.and_eq_true, decide_eq_true_eq, BitVec.le_def] at hin
  unfold gateBit gateBase
  omega

theorem gateMask_legal {p : Params} (h : p.wf = true) {k : GateInst} {id : PeriphId}
    (hin : p.gates.contains k id = true) :
    ((List.range 32).any fun b => decide (gateMask p.gates k id = 1#32 <<< b)) = true :=
  List.any_eq_true.mpr ⟨gateBit p.gates k id, List.mem_range.mpr (gateBit_lt h hin), decide_eq_true rfl⟩

theorem execConstrain_coherent {s t : State} (h : Coherent s) (he : execConstrain s = .next t) : Coherent t := by
  obtain rfl := Host.Outcome.next.inj he
  refine whenTaken_coherent h ?_
  split
  case isTrue hs =>
    exact respond_coherent (h.setBuilder (.inl hs) (.inr (.inl rfl)) (show (0 : BitVec 2) ≠ 3 by decide) false s.bTgt) _ _
  case isFalse => exact refuse_coherent h _

theorem execWithTargetFrequency_coherent {freq : Freq} {s t : State} (h : Coherent s)
    (he : execWithTargetFrequency freq s = .next t) : Coherent t := by
  obtain rfl := Host.Outcome.next.inj he
  refine whenTaken_coherent h (inBuilding_coherent h fun hs => ?_)
  exact respond_coherent (h.setBuilder (.inr (.inl hs)) (.inr (.inl hs)) h.source true freq) _ _

theorem execWithSource_coherent {src : BitVec 2} {s t : State} (h : Coherent s)
    (he : execWithSource src s = .next t) : Coherent t := by
  obtain rfl := Host.Outcome.next.inj he
  refine whenTaken_coherent h ?_
  split
  case isTrue => exact refuse_coherent h _
  case isFalse hsrc =>
    refine inBuilding_coherent h fun hs => ?_
    exact respond_coherent (h.setBuilder (.inr (.inl hs)) (.inr (.inl hs)) hsrc s.bTv s.bTgt) _ _

theorem execFreeze_coherent {s t : State} (h : Coherent s) (he : execFreeze s = .next t) : Coherent t := by
  obtain rfl := Host.Outcome.next.inj he
  refine whenTaken_coherent h (inBuilding_coherent h fun hs => ?_)
  exact h.setBuilder (.inr (.inl hs)) (.inr (.inr rfl)) h.source s.bTv s.bTgt

theorem execGateEnable_coherent {k : GateInst} {id : PeriphId} {s t : State} (h : Coherent s)
    (he : execGateEnable k id s = .next t) : Coherent t := by
  obtain rfl := Host.Outcome.next.inj he
  refine whenTaken_coherent h (admitGate_coherent h fun hin => ?_)
  exact respond_coherent (h.write_gate ⟨k, _, .inl rfl⟩ (gateMask_legal h.params hin)) _ _

theorem execGateDisable_coherent {k : GateInst} {id : PeriphId} {s t : State} (h : Coherent s)
    (he : execGateDisable k id s = .next t) : Coherent t := by
  obtain rfl := Host.Outcome.next.inj he
  refine whenTaken_coherent h (admitGate_coherent h fun hin => ?_)
  exact respond_coherent (h.write_gate ⟨k, _, .inr rfl⟩ (gateMask_legal h.params hin)) _ _

theorem execGateStatus_coherent {k : GateInst} {id : PeriphId} {s t : State} (h : Coherent s)
    (he : execGateStatus k id s = .next t) : Coherent t := by
  obtain rfl := Host.Outcome.next.inj he
  exact whenTaken_coherent h (admitGate_coherent h fun _ => respond_coherent (hwReadGateSt_coherent h k) _ _)

/-- The six accessors, by the field they answer. -/
theorem accessor_coherent {value : RecRegs → BitVec 32} {s t : State} (h : Coherent s)
    (he : (.next (whenTaken s (answerFrozen value)) : Host.Outcome State Fault Refusal) = .next t) : Coherent t := by
  obtain rfl := Host.Outcome.next.inj he
  exact whenTaken_coherent h (answerFrozen_coherent value h)

theorem exec_coherent {i : Instr} {s t : State} (h : Coherent s) (he : exec i s = .next t) : Coherent t := by
  cases i with
  | constrain => exact execConstrain_coherent h he
  | withTargetFrequency freq => exact execWithTargetFrequency_coherent h he
  | withSource src => exact execWithSource_coherent h he
  | freeze => exact execFreeze_coherent h he
  | gateEnable k id => exact execGateEnable_coherent h he
  | gateDisable k id => exact execGateDisable_coherent h he
  | gateStatus k id => exact execGateStatus_coherent h he
  | clockSource => exact accessor_coherent h he
  | slowClockFreq => exact accessor_coherent h he
  | mainOscFreq => exact accessor_coherent h he
  | pllRatio => exact accessor_coherent h he
  | masterClockFreq => exact accessor_coherent h he
  | appliedPrescaler => exact accessor_coherent h he

/-- Settles O59: each kind of step (`step_cases`) keeps the invariant. -/
theorem everyStepKeepsCoherence : Obligations.EveryStepKeepsCoherence := by
  intro s t h hstep
  have hsample := sampleReset_coherent h
  have htaken := takeWord_coherent hsample
  rcases step_cases hstep with
    ⟨_, rfl⟩ | ⟨_, hb, rfl⟩ | ⟨_, _, _, rfl⟩ | ⟨_, _, _, _, _, _, _, rfl⟩ | ⟨_, _, _, _, _, _, _, he⟩
  case inl => exact blockReset_coherent hsample
  case inr.inl => exact sequencerStep_coherent hsample hb
  case inr.inr.inl => exact hsample
  case inr.inr.inr.inl => exact refuse_coherent htaken _
  case inr.inr.inr.inr => exact exec_coherent htaken he

end Sys2Proof.Machine

/-! # State: what a run keeps (spec/10_state.md R33, R34)

A property that every step keeps holds along every run (`RunsTo.invariant`). The parameters and the reset schedule are such
inputs of every step, and the transitions of `seq` never lead back to `BUILDING`. -/

namespace Sys2Proof.Machine

/-! ### Runs -/

/-- A run of `n + 1` steps is a step and a run of `n`. -/
theorem runsTo_succ_iff {n : Nat} {s u : State} : RunsTo (n + 1) s u ↔ ∃ t, step s = .next t ∧ RunsTo n t u := by
  constructor
  · intro h
    cases hs : step s with
    | next t => exact ⟨t, rfl, (runsTo_succ hs).mp h⟩
    | fault f => exact f.casesOn
    | refused r =>
      have : Sys2Proof.core.step s = .refused r := hs
      simp [RunsTo, Host.Core.run, this] at h
  · rintro ⟨t, hs, h⟩
    exact (runsTo_succ hs).mpr h

/-- What every step keeps holds at the end of every run that starts with it. -/
theorem RunsTo.invariant {P : State → Prop} (hstep : ∀ s t, P s → step s = .next t → P t) {n : Nat} {s t : State}
    (h : RunsTo n s t) (hs : P s) : P t := by
  induction n generalizing s with
  | zero => rwa [runsTo_zero.mp h]
  | succ n ih =>
    obtain ⟨u, hu, hrest⟩ := runsTo_succ_iff.mp h
    exact ih hrest (hstep s u hs hu)

/-! ### The inputs of a step -/

/-- The parameters and the reset schedule are the same in both states. -/
structure SameInputs (s t : State) : Prop where
  params  : t.params = s.params
  resetIn : t.resetIn = s.resetIn

theorem afterPoll_sameInputs {site : Seq} {b : Bit} {done : State → State} {s : State} (h : SameInputs s (done s)) :
    SameInputs s (afterPoll site b done s) := by
  rcases afterPoll_cases site b done s with ⟨_, he⟩ | ⟨_, _, he⟩ | ⟨_, _, he⟩ | ⟨_, _, he⟩ <;> rw [he]
  · exact h
  all_goals exact ⟨rfl, rfl⟩

theorem SameInputs.trans {s t u : State} (h : SameInputs s t) (h' : SameInputs t u) : SameInputs s u :=
  ⟨h'.params.trans h.params, h'.resetIn.trans h.resetIn⟩

theorem stepEval_sameInputs (s : State) : SameInputs s (stepEval s) := by
  rcases stepEval_cases s with ⟨_, _, he⟩ | ⟨_, _, he⟩ <;> rw [he] <;> exact ⟨rfl, rfl⟩

theorem sequencerStep_sameInputs {s : State} (hb : s.seq.busy = true) : SameInputs s (sequencerStep s) := by
  rcases sequencerStep_cases hb with
    ⟨_, he⟩ | ⟨_, he⟩ | ⟨_, he⟩ | ⟨_, he⟩ | ⟨_, he⟩ | ⟨_, he⟩ | ⟨_, he⟩ <;> rw [he]
  · exact stepEval_sameInputs s
  · exact ⟨rfl, rfl⟩
  · exact .trans (t := hwReadPllLock s) ⟨rfl, rfl⟩ (afterPoll_sameInputs ⟨rfl, rfl⟩)
  · exact ⟨rfl, rfl⟩
  · exact .trans (t := hwReadMckRdy s) ⟨rfl, rfl⟩ (afterPoll_sameInputs ⟨rfl, rfl⟩)
  · exact ⟨rfl, rfl⟩
  · exact .trans (t := hwReadMckRdy s) ⟨rfl, rfl⟩ (afterPoll_sameInputs ⟨rfl, rfl⟩)

theorem exec_sameInputs {i : Instr} {s t : State} (h : exec i s = .next t) : SameInputs s t := by
  obtain ⟨hframe, _⟩ := exec_frame h
  rw [hframe]
  exact ⟨rfl, rfl⟩

/-- A step samples the reset input once and leaves the rest of the schedule and the parameters alone (log 4, log 6). -/
theorem step_sameInputs {s t : State} (h : step s = .next t) : SameInputs (sampleReset s) t := by
  rcases step_cases h with
    ⟨_, rfl⟩ | ⟨_, hb, rfl⟩ | ⟨_, _, _, rfl⟩ | ⟨_, _, _, _, _, _, _, rfl⟩ | ⟨_, _, _, _, _, _, _, he⟩
  case inl => exact ⟨rfl, rfl⟩
  case inr.inl => exact sequencerStep_sameInputs hb
  case inr.inr.inl => exact ⟨rfl, rfl⟩
  case inr.inr.inr.inl => exact ⟨rfl, rfl⟩
  case inr.inr.inr.inr => exact .trans (t := takeWord (sampleReset s)) ⟨rfl, rfl⟩ (exec_sameInputs he)

/-- Settles O11: no step changes the parameters (`step_sameInputs`), so no run does. -/
theorem parametersNeverChange : Obligations.ParametersNeverChange := by
  intro n s t h
  exact h.invariant (P := fun u => u.params = s.params) (fun _ _ hu hs => (step_sameInputs hs).params.trans hu) rfl

/-! ### The transitions of `seq` -/

theorem whenTaken_seq {s : State} {act : State → State} (h : (act s).seq = s.seq) : (whenTaken s act).seq = s.seq := by
  rcases whenTaken_cases s act with ⟨_, he⟩ | ⟨_, he⟩ <;> rw [he]
  exact h

theorem inBuilding_seq {s : State} {act : State → State} (h : (act s).seq = s.seq) : (inBuilding s act).seq = s.seq := by
  rcases inBuilding_cases s act with ⟨_, he⟩ | ⟨_, he⟩ | ⟨_, _, he⟩ <;> rw [he]
  · rfl
  · exact h
  · rfl

theorem answerFrozen_seq (value : RecRegs → BitVec 32) (s : State) : (answerFrozen value s).seq = s.seq := by
  rcases answerFrozen_cases value s with ⟨_, he⟩ | ⟨_, he⟩ | ⟨_, _, he⟩ <;> rw [he] <;> rfl

theorem admitGate_seq {k : GateInst} {id : PeriphId} {s : State} {act : State → State} (h : (act s).seq = s.seq) :
    (admitGate k id s act).seq = s.seq := by
  rcases admitGate_cases k id s act with ⟨_, he⟩ | ⟨_, _, he⟩ | ⟨_, _, he⟩ <;> rw [he]
  · rfl
  · rfl
  · exact h

theorem execConstrain_seq {s t : State} (h : execConstrain s = .next t) :
    t.seq = s.seq ∨ (s.seq = .raw ∧ t.seq = .building) := by
  obtain rfl := Host.Outcome.next.inj h
  by_cases hs : s.seq = .raw
  · exact .inr ⟨hs, by simp [whenTaken, hs, Seq.busy]⟩
  · exact .inl (whenTaken_seq (by simp [hs]))

theorem execWithSource_seq {src : BitVec 2} {s t : State} (h : execWithSource src s = .next t) : t.seq = s.seq := by
  obtain rfl := Host.Outcome.next.inj h
  refine whenTaken_seq ?_
  split
  · rfl
  · exact inBuilding_seq rfl

/-- FREEZE is accepted only in `BUILDING`, and leaves it (spec/10_state.md R34). -/
theorem execFreeze_seq {s t : State} (h : execFreeze s = .next t) :
    t.seq = s.seq ∨ (s.seq = .building ∧ t.seq = .sEval) := by
  obtain rfl := Host.Outcome.next.inj h
  rcases whenTaken_cases s fun s => inBuilding s fun s => { s with seq := .sEval } with ⟨_, he⟩ | ⟨_, he⟩ <;> rw [he]
  · exact .inl rfl
  · rcases inBuilding_cases s fun s => { s with seq := .sEval } with ⟨_, he⟩ | ⟨hs, he⟩ | ⟨_, _, he⟩ <;> rw [he]
    · exact .inl rfl
    · exact .inr ⟨hs, rfl⟩
    · exact .inl rfl

theorem accessor_seq {value : RecRegs → BitVec 32} {s t : State}
    (h : (.next (whenTaken s (answerFrozen value)) : Host.Outcome State Fault Refusal) = .next t) : t.seq = s.seq := by
  obtain rfl := Host.Outcome.next.inj h
  exact whenTaken_seq (answerFrozen_seq value s)

/-- A command moves `seq` in two ways only: CONSTRAIN from `RAW`, FREEZE from `BUILDING` (spec/40_builder.md R120,
spec/42_commit_sequencer.md R170). -/
theorem exec_seq_cases {i : Instr} {s t : State} (h : exec i s = .next t) :
    t.seq = s.seq ∨ (s.seq = .raw ∧ t.seq = .building) ∨ (s.seq = .building ∧ t.seq = .sEval) := by
  cases i with
  | constrain => exact (execConstrain_seq h).imp_right .inl
  | withTargetFrequency freq =>
    obtain rfl := Host.Outcome.next.inj h
    exact .inl (whenTaken_seq (inBuilding_seq rfl))
  | withSource src => exact .inl (execWithSource_seq h)
  | freeze => exact (execFreeze_seq h).imp_right .inr
  | gateEnable k id =>
    obtain rfl := Host.Outcome.next.inj h
    exact .inl (whenTaken_seq (admitGate_seq rfl))
  | gateDisable k id =>
    obtain rfl := Host.Outcome.next.inj h
    exact .inl (whenTaken_seq (admitGate_seq rfl))
  | gateStatus k id =>
    obtain rfl := Host.Outcome.next.inj h
    exact .inl (whenTaken_seq (admitGate_seq rfl))
  | clockSource => exact .inl (accessor_seq h)
  | slowClockFreq => exact .inl (accessor_seq h)
  | mainOscFreq => exact .inl (accessor_seq h)
  | pllRatio => exact .inl (accessor_seq h)
  | masterClockFreq => exact .inl (accessor_seq h)
  | appliedPrescaler => exact .inl (accessor_seq h)

/-- A poll moves `seq` along a transition if a 1, a timeout and waiting on do (spec/42_commit_sequencer.md R178). -/
theorem afterPoll_transition {q site : Seq} {b : Bit} {done : State → State} {s : State} (hq : s.seq = q)
    (hdone : transition q (done s).seq = true) (hfault : transition q .fault = true) (hself : transition q q = true) :
    transition q (afterPoll site b done s).seq = true := by
  rcases afterPoll_cases site b done s with ⟨_, he⟩ | ⟨_, _, he⟩ | ⟨_, _, he⟩ | ⟨_, _, he⟩ <;> rw [he]
  · exact hdone
  · exact hfault
  · rwa [hq]
  · show transition q s.seq = true
    rwa [hq]

theorem stepEval_seq_cases (s : State) :
    (stepEval s).seq = .fault ∨ (stepEval s).seq = .sWritePll ∨ (stepEval s).seq = .sWriteCss := by
  rcases stepEval_cases s with ⟨_, _, he⟩ | ⟨_, _, he⟩ <;> rw [he]
  · exact .inl rfl
  · by_cases hsrc : s.bSrc = Config.cssPll <;> simp [hsrc]

/-- The sequencer moves along the rows 2 to 8 of spec/42_commit_sequencer.md R181. -/
theorem sequencerStep_transition {s : State} (hb : s.seq.busy = true) :
    transition s.seq (sequencerStep s).seq = true := by
  rcases sequencerStep_cases hb with
    ⟨hs, he⟩ | ⟨hs, he⟩ | ⟨hs, he⟩ | ⟨hs, he⟩ | ⟨hs, he⟩ | ⟨hs, he⟩ | ⟨hs, he⟩ <;> rw [hs, he]
  · rcases stepEval_seq_cases s with h | h | h <;> rw [h] <;> rfl
  · rfl
  · exact afterPoll_transition (s := hwReadPllLock s) hs rfl rfl rfl
  · rfl
  · exact afterPoll_transition (s := hwReadMckRdy s) hs rfl rfl rfl
  · rfl
  · exact afterPoll_transition (s := hwReadMckRdy s) hs rfl rfl rfl

/-- A state that is not busy may stay where it is (spec/42_commit_sequencer.md R181). -/
theorem transition_self {q : Seq} (h : q.busy = false) : transition q q = true := by
  cases q <;> first | rfl | exact absurd h (by decide)

/-- Without a reset a step moves `seq` along a transition (spec/42_commit_sequencer.md R181). -/
theorem step_transition {s t : State} (hr : resetAsserted s = false) (h : step s = .next t) :
    transition s.seq t.seq = true := by
  rcases step_cases h with
    ⟨hreset, _⟩ | ⟨_, hb, rfl⟩ | ⟨_, hb, _, rfl⟩ | ⟨_, hb, _, _, _, _, _, rfl⟩ | ⟨_, hb, _, _, _, _, _, he⟩
  case inl => simp [hr] at hreset
  case inr.inl => exact sequencerStep_transition (s := sampleReset s) hb
  case inr.inr.inl => exact transition_self hb
  case inr.inr.inr.inl => exact transition_self hb
  case inr.inr.inr.inr =>
    rcases exec_seq_cases he with hseq | ⟨hs, ht⟩ | ⟨hs, ht⟩
    · rw [hseq]; exact transition_self hb
    · rw [show s.seq = .raw from hs, ht]; rfl
    · rw [show s.seq = .building from hs, ht]; rfl

/-! ### One FREEZE between two resets -/

/-- Past `BUILDING`: a FREEZE has been accepted since the last reset (spec/10_state.md R34). -/
def Seq.PastBuilding (q : Seq) : Prop := q ≠ .raw ∧ q ≠ .building

/-- No transition leads back to `BUILDING`. -/
theorem Seq.PastBuilding.of_transition {q r : Seq} (h : q.PastBuilding) (ht : transition q r = true) :
    r.PastBuilding := by
  obtain ⟨hraw, hbuilding⟩ := h
  constructor <;> rintro rfl <;> cases q <;> first | exact hraw rfl | exact hbuilding rfl | cases ht

theorem NoReset.of_step {s t : State} (h : NoReset s) (hs : step s = .next t) : NoReset t := by
  unfold NoReset
  rw [(step_sameInputs hs).resetIn]
  exact h.tail

/-- A run without a reset stays past `BUILDING`. -/
theorem RunsTo.pastBuilding {n : Nat} {s t : State} (h : RunsTo n s t) (hr : NoReset s) (hs : s.seq.PastBuilding) :
    t.seq.PastBuilding :=
  (h.invariant (P := fun u => NoReset u ∧ u.seq.PastBuilding)
    (fun _ _ ⟨hr, hp⟩ hstep => ⟨hr.of_step hstep, hp.of_transition (step_transition hr.head hstep)⟩) ⟨hr, hs⟩).2

/-- Settles O35: FREEZE moves `seq` from `BUILDING` only (`execFreeze_seq`), and no run comes back there
(`RunsTo.pastBuilding`). -/
theorem atMostOneFreezeBetweenResets : Obligations.AtMostOneFreezeBetweenResets := by
  constructor
  · intro s u h hmoved
    exact (execFreeze_seq h).resolve_left hmoved
  · intro n s t u hr hraw hbuilding hrun hfreeze
    obtain ⟨_, ht⟩ := hrun.pastBuilding hr ⟨hraw, hbuilding⟩
    exact ⟨ht, (execFreeze_seq hfreeze).resolve_right fun ⟨hb, _⟩ => ht hb⟩

end Sys2Proof.Machine

/-! # State: the laws of the frozen record (spec/10_state.md R35, R36)

In `FROZEN` the record is the one latched from the staged values, which are the encoder's result, and all writes of its path
have been made; so the laws are those of `Staged.divisor` and `Staged.pll`, read through `latchRecord`. -/

namespace Sys2Proof.Machine

/-- In `FROZEN` the record is the staged values', and they are what `CSS` and `PRES` were last given
(spec/42_commit_sequencer.md R177). -/
theorem Coherent.frozen {s : State} (h : Coherent s) (hs : s.seq = .frozen) :
    s.record = latchRecord s ∧ Staged s ∧ lastCss s.trace = some s.bSrc ∧ lastPres s.trace = some s.enc.pres := by
  have hprog : s.progress = commitProgress s.bSrc .frozen := hs ▸ h.progress (by simp [hs])
  have hbits : s.progress.getLsbD 1 = true ∧ s.progress.getLsbD 2 = true := by
    rw [hprog]; simp only [commitProgress]; split <;> decide
  have hstaged : Staged s := h.staged_of_committing (by simp [hs, Seq.Committing])
  obtain ⟨hcss, hpres⟩ := hbits
  exact ⟨h.latched hs, hstaged, hstaged.css ▸ (h.cssWritten hcss).2, (h.presWritten hpres).2⟩

/-- In `FROZEN` on the PLL path `PLL_CTRL` was last given the staged multiplier. -/
theorem Coherent.frozen_pllCtrl {s : State} (h : Coherent s) (hs : s.seq = .frozen) (hsrc : s.bSrc = Config.cssPll) :
    lastPllCtrl s.trace = some (s.enc.mul, 2) := by
  have hprog : s.progress = commitProgress s.bSrc .frozen := hs ▸ h.progress (by simp [hs])
  exact (h.pllWritten (by rw [hprog, hsrc]; rfl)).2.2

theorem toNat_ofNat_of_lt {w n : Nat} (h : n < 2 ^ w) : (BitVec.ofNat w n).toNat = n :=
  (BitVec.toNat_ofNat n w).trans (Nat.mod_eq_of_lt h)

/-- The natural frequency of a source is a 32-bit number (spec/41_encoder.md R142). -/
theorem naturalFreq_lt (src : BitVec 2) (main : Freq) : naturalFreq src main < 2 ^ 32 := by
  unfold naturalFreq
  split
  · decide
  · exact main.isLt

@[simp] theorem latchRecord_applied_toNat (s : State) : (latchRecord s).applied.toNat = s.enc.applied.toNat := by
  have := s.enc.applied.isLt
  simp [latchRecord]
  omega

/-- Settles O43, by `Staged.divisor` on the latched record. -/
theorem frozenRecordOnDivisorPath : Obligations.FrozenRecordOnDivisorPath := by
  intro s source h hs hpath
  obtain ⟨hrec, hstaged, hcss, hpres⟩ := h.frozen hs
  have hsource : s.bSrc ≠ Config.cssPll ∧ source = naturalFreq s.bSrc s.enc.main := by
    rw [hrec] at hpath
    rcases hpath with ⟨hsrc, rfl⟩ | ⟨hsrc, rfl⟩ <;> rw [show s.bSrc = _ from hsrc] <;> exact ⟨by decide, rfl⟩
  obtain ⟨hsrc, rfl⟩ := hsource
  obtain ⟨htarget, hmem, hdec, hmck⟩ := hstaged.divisor hsrc
  have hquot : naturalFreq s.bSrc s.enc.main / s.enc.applied.toNat < 2 ^ 32 :=
    (Nat.div_le_self _ _).trans_lt (naturalFreq_lt s.bSrc s.enc.main)
  rw [hrec, latchRecord_applied_toNat]
  refine ⟨?_, hmem, ⟨_, hpres, hdec⟩, hcss, htarget⟩
  calc (latchRecord s).mck.toNat = (BitVec.ofNat 32 (naturalFreq s.bSrc s.enc.main / s.enc.applied.toNat)).toNat := by
        rw [← hmck]; rfl
    _ = naturalFreq s.bSrc s.enc.main / s.enc.applied.toNat := toNat_ofNat_of_lt hquot

/-- A coherent state's table has no frequency 0 (spec/00_scope.md R6). -/
theorem Coherent.oscLookup_pos {s : State} (h : Coherent s) {cls : OscClass} {main : Freq}
    (hl : oscLookup s.params.oscTable cls = some main) : 0 < main.toNat := by
  have hwf := h.params
  simp only [Params.wf, Bool.and_eq_true] at hwf
  obtain ⟨⟨⟨hpos, _⟩, _⟩, _⟩ := hwf
  have hne := oscLookup_ne_zero hpos hl
  exact Nat.pos_of_ne_zero fun h0 => hne (BitVec.eq_of_toNat_eq h0)

/-- Settles O44, by `Staged.pll` on the latched record; the ratio is exact because the main frequency is not 0. -/
theorem frozenRecordOnPllPath : Obligations.FrozenRecordOnPllPath := by
  intro s h hs hpath
  obtain ⟨hrec, hstaged, hcss, hpres⟩ := h.frozen hs
  rw [hrec] at hpath
  have hsrc : s.bSrc = Config.cssPll := hpath
  obtain ⟨m, hm⟩ := hstaged.pll hsrc
  obtain ⟨cls, hmain⟩ := hm.main
  have hm12 : m < 2 ^ 12 := hm.upper.trans_lt (by decide)
  have hm32 : m < 2 ^ 32 := hm.upper.trans_lt (by decide)
  have hmck : s.enc.mck.toNat = s.enc.main.toNat * m := by rw [hm.mck, toNat_ofNat_of_lt hm.fits]
  have hmul : s.enc.mul.toNat = m := by rw [hm.mul, toNat_ofNat_of_lt hm12]
  have happlied : s.enc.applied.toNat = m := by rw [hm.applied, toNat_ofNat_of_lt hm12]
  have hratio : s.enc.ratio.toNat = m := by
    rw [hm.ratio, Nat.mul_div_cancel_left m (h.oscLookup_pos hmain), toNat_ofNat_of_lt hm32]
  have hratioApplied : (latchRecord s).ratio = (latchRecord s).applied := by
    apply BitVec.eq_of_toNat_eq
    rw [latchRecord_applied_toNat, happlied]
    exact hratio
  rw [hrec, latchRecord_applied_toNat, happlied]
  exact ⟨hmck, hm.lower, hm.upper, hratioApplied, ⟨s.enc.mul, h.frozen_pllCtrl hs hsrc, hmul⟩,
    hcss.trans (congrArg some hsrc), hm.pres ▸ hpres⟩

end Sys2Proof.Machine

/-! # Memory: the step of a ready block (spec/20_memory.md R72, spec/42_commit_sequencer.md R180)

Without a reset and outside the busy states a step samples the reset input, takes the presented word and runs what it
decodes to. -/

namespace Sys2Proof.Machine

/-- Sampling the reset and taking the word change the two input queues and nothing else. -/
theorem takeWord_sampleReset_of_cmdIn {s : State} {w : CmdWord} {rest : List CmdWord} (h : s.cmdIn = w :: rest) :
    takeWord (sampleReset s) = { s with cmdIn := rest, resetIn := s.resetIn.tail } := by
  simp only [takeWord, sampleReset, h, List.tail_cons]

/-- A ready block without reset runs the command that the presented word decodes to. -/
theorem step_of_presentedWord {s : State} {w : CmdWord} {i : Instr} (hr : resetAsserted s = false)
    (hb : s.seq.busy = false) (hw : presentedWord s = some w) (hd : fetchDecode s w = .ok i) :
    step s = exec i (takeWord (sampleReset s)) := by
  simp only [step, hr, hb, hw, hd, Bool.false_eq_true, if_false]

/-- Settles O6: the step is the decoded command's (`step_of_presentedWord`), on the state with the word taken
(`takeWord_sampleReset_of_cmdIn`). -/
theorem stepRunsThePresentedCommand : Obligations.StepRunsThePresentedCommand := by
  intro s w rest i hr hb hc hd
  have hw : presentedWord s = some w := congrArg List.head? hc
  rw [← takeWord_sampleReset_of_cmdIn hc]
  exact step_of_presentedWord hr hb hw hd

end Sys2Proof.Machine

/-! # Encoding: the command word (spec/30_encoding.md R90 to R95)

The operand of a word is put together from its fields in one way only, so each format of the decoder can be read as an
equation about the operand (`decodeN_eq_ok_iff`, `decodeS_eq_ok_iff`, `decodeG_eq_ok_iff`). From these follows that the
decoder inverts the encoder on the well-formed commands (`decode_encode`) and accepts no other word (`encode_of_decode`). -/

namespace Sys2Proof.Machine

/-! ### Words and the fields of their operands -/

theorem append_eq_append_iff {m n : Nat} {a c : BitVec m} {b d : BitVec n} : a ++ b = c ++ d ↔ a = c ∧ b = d := by
  constructor
  · intro h
    have hleft := congrArg (BitVec.extractLsb' n m) h
    have hright := congrArg (BitVec.extractLsb' 0 n) h
    rw [BitVec.extractLsb'_append_eq_left, BitVec.extractLsb'_append_eq_left] at hleft
    rw [BitVec.extractLsb'_append_eq_right, BitVec.extractLsb'_append_eq_right] at hright
    exact ⟨hleft, hright⟩
  · rintro ⟨rfl, rfl⟩
    rfl

/-- A word is the encoding of `i` when its two fields are those of `i` (R90). -/
theorem encode_eq_iff {i : Instr} {w : CmdWord} : encode i = w ↔ i.opcode = opField w ∧ i.operand = argField w := by
  rw [← opField_append_argField w]
  simp only [opField_append, argField_append]
  exact append_eq_append_iff

/-- The operand as the fields of format S (R93). -/
theorem argField_eq_sourceFields (w : CmdWord) : argField w = (sourceZeroField w ++ srcField w : BitVec 32) :=
  (BitVec.extractLsb'_append_extractLsb'_eq_extractLsb' (x := w) (start₁ := 0) (len₁ := 2) (len₂ := 30) rfl).symm

/-- The operand as the fields of format G (R94). -/
theorem argField_eq_gateFields (w : CmdWord) :
    argField w = ((gateZeroField w ++ instField w : BitVec 26) ++ idField w : BitVec 32) := by
  have hhigh : (gateZeroField w ++ instField w : BitVec 26) = w.extractLsb' 6 26 :=
    BitVec.extractLsb'_append_extractLsb'_eq_extractLsb' rfl
  rw [hhigh]
  exact (BitVec.extractLsb'_append_extractLsb'_eq_extractLsb' (start₁ := 0) (len₁ := 6) (len₂ := 26) rfl).symm

theorem argField_eq_source_iff {w : CmdWord} {src : BitVec 2} :
    argField w = (Instr.withSource src).operand ↔ sourceZeroField w = 0 ∧ srcField w = src := by
  rw [argField_eq_sourceFields]
  exact append_eq_append_iff

theorem bit_eq_bitOfInst_iff {b : Bit} {k : GateInst} : b = bitOfInst k ↔ instOfBit b = k := by
  cases k <;> revert b <;> decide

theorem argField_eq_gateOperand_iff {w : CmdWord} {k : GateInst} {id : PeriphId} :
    argField w = gateOperand k id ↔ gateZeroField w = 0 ∧ instOfBit (instField w) = k ∧ idField w = id := by
  rw [argField_eq_gateFields, gateOperand, append_eq_append_iff, append_eq_append_iff, bit_eq_bitOfInst_iff, and_assoc]
  rfl

/-! ### The decoder, format by format -/

/-- Format N accepts the operand 0 only (R91). -/
theorem decodeN_eq_ok_iff {w : CmdWord} {i j : Instr} : decodeN w j = .ok i ↔ argField w = 0 ∧ j = i := by
  unfold decodeN
  split <;> simp_all

/-- Format S accepts the operands of `WITH_SOURCE` with a source other than 3 (R93). -/
theorem decodeS_eq_ok_iff {w : CmdWord} {i : Instr} :
    decodeS w = .ok i ↔ ∃ src, src ≠ 3 ∧ argField w = (Instr.withSource src).operand ∧ .withSource src = i := by
  simp only [argField_eq_source_iff, decodeS]
  by_cases hz : sourceZeroField w = 0 <;> by_cases hs : srcField w = 3 <;> simp_all

/-- Format G accepts the gate operands with an ID in the range that they name (R94). -/
theorem decodeG_eq_ok_iff {g : GateRanges} {w : CmdWord} {mk : GateInst → PeriphId → Instr} {i : Instr} :
    decodeG g w mk = .ok i ↔ ∃ k id, g.contains k id = true ∧ argField w = gateOperand k id ∧ mk k id = i := by
  simp only [argField_eq_gateOperand_iff, decodeG]
  by_cases hz : gateZeroField w = 0 <;>
    by_cases hc : g.contains (instOfBit (instField w)) (idField w) = true <;> simp_all

/-! ### The round trip -/

/-- The decoder reads a well-formed command back from its encoding: by the opcode it takes the command's format, which
accepts the command's operand. -/
theorem decode_encode {g : GateRanges} {i : Instr} (h : WellFormed g i = true) : decode g (encode i) = .ok i := by
  have harg : argField (encode i) = i.operand := argField_encode i
  simp only [decode, opField_encode]
  cases i with
  | withTargetFrequency freq => exact congrArg (fun freq => Except.ok (Instr.withTargetFrequency freq)) harg
  | withSource src => exact decodeS_eq_ok_iff.mpr ⟨src, of_decide_eq_true h, harg, rfl⟩
  | gateEnable k id | gateDisable k id | gateStatus k id => exact decodeG_eq_ok_iff.mpr ⟨k, id, h, harg, rfl⟩
  | _ => exact decodeN_eq_ok_iff.mpr ⟨harg, rfl⟩

/-- The opcode under which a word was decoded, and what its format accepted, are the fields of the command. The branches
`h_1` to `h_13` of `decode` are the opcodes 1 to 13, and `h_14` is every other opcode. -/
theorem encode_of_decode {g : GateRanges} {w : CmdWord} {i : Instr} (h : decode g w = .ok i) :
    WellFormed g i = true ∧ encode i = w := by
  rw [encode_eq_iff]
  unfold decode at h
  split at h
  all_goals rename_i hop
  case h_2 =>
    cases h
    exact ⟨rfl, hop.symm, rfl⟩
  case h_3 =>
    obtain ⟨src, hsrc, harg, rfl⟩ := decodeS_eq_ok_iff.mp h
    exact ⟨decide_eq_true hsrc, hop.symm, harg.symm⟩
  case h_5 | h_6 | h_7 =>
    obtain ⟨k, id, hin, harg, rfl⟩ := decodeG_eq_ok_iff.mp h
    exact ⟨hin, hop.symm, harg.symm⟩
  case h_14 => cases h
  all_goals
    obtain ⟨harg, rfl⟩ := decodeN_eq_ok_iff.mp h
    exact ⟨rfl, hop.symm, harg.symm⟩

/-- Settles O1, by `decode_encode`. -/
theorem decodeOfEncodeIsTheCommand : Obligations.DecodeOfEncodeIsTheCommand :=
  fun _ _ => decode_encode

/-- Settles O2, by `encode_of_decode`. -/
theorem decodedWordIsItsEncoding : Obligations.DecodedWordIsItsEncoding :=
  fun _ _ _ => encode_of_decode

end Sys2Proof.Machine

/-! # Encoding: what the decoder's answer says of a word (spec/30_encoding.md R96, R97, R105, R107)

The reserved words, which the statements spell in numbers, are those that the decoder rejects
(`reservedWord_iff_decode_error`, proved format by format), and a ready block refuses them. A word that the decoder accepts
encodes its command, so it selects the row of that command, and no word selects a second row. -/

namespace Sys2Proof.Machine

/-! ### The fields as numbers -/

theorem opNat_eq (w : CmdWord) : opNat w = (opField w).toNat := (opField_toNat w).symm

theorem argField_eq_zero_iff {w : CmdWord} : argField w = 0 ↔ argNat w = 0 := by
  rw [← BitVec.toNat_inj, argField_toNat]
  rfl

theorem sourceZeroField_toNat (w : CmdWord) : (sourceZeroField w).toNat = argNat w / 4 := by
  simp only [sourceZeroField, argNat, BitVec.extractLsb'_toNat, Nat.shiftRight_eq_div_pow]
  omega

theorem srcField_toNat (w : CmdWord) : (srcField w).toNat = argNat w % 4 := by
  simp only [srcField, argNat, BitVec.extractLsb'_toNat, Nat.shiftRight_eq_div_pow]
  omega

theorem gateZeroField_toNat (w : CmdWord) : (gateZeroField w).toNat = argNat w / 128 := by
  simp only [gateZeroField, argNat, BitVec.extractLsb'_toNat, Nat.shiftRight_eq_div_pow]
  omega

theorem instField_toNat (w : CmdWord) : (instField w).toNat = argNat w / 64 % 2 := by
  simp only [instField, argNat, BitVec.extractLsb'_toNat, Nat.shiftRight_eq_div_pow]
  omega

theorem idField_toNat (w : CmdWord) : (idField w).toNat = argNat w % 64 := by
  simp only [idField, argNat, BitVec.extractLsb'_toNat, Nat.shiftRight_eq_div_pow]
  omega

/-- The range test of the decoder is the one in numbers (R94). -/
theorem contains_iff_gateIdInRange {g : GateRanges} {b : Bit} {id : PeriphId} :
    g.contains (instOfBit b) id = true ↔ gateIdInRange g b.toNat id.toNat := by
  obtain rfl | rfl : b = 0 ∨ b = 1 := by revert b; decide
  all_goals simp [GateRanges.contains, GateRanges.range, instOfBit, gateIdInRange, BitVec.le_def]

/-! ### Reserved words -/

theorem decodeN_error_iff {w : CmdWord} {i : Instr} : (∃ e, decodeN w i = .error e) ↔ argNat w ≠ 0 := by
  rw [ne_eq, ← argField_eq_zero_iff, decodeN]
  split <;> simp_all

theorem decodeS_error_iff {w : CmdWord} :
    (∃ e, decodeS w = .error e) ↔ argNat w / 4 ≠ 0 ∨ argNat w % 4 = 3 := by
  have hzero : sourceZeroField w = 0 ↔ argNat w / 4 = 0 := by rw [← BitVec.toNat_inj, sourceZeroField_toNat]; rfl
  have hsrc : srcField w = 3 ↔ argNat w % 4 = 3 := by rw [← BitVec.toNat_inj, srcField_toNat]; rfl
  rw [← hsrc, ne_eq, ← hzero, decodeS]
  split
  · simp_all
  · split <;> simp_all

theorem decodeG_error_iff {g : GateRanges} {w : CmdWord} {mk : GateInst → PeriphId → Instr} :
    (∃ e, decodeG g w mk = .error e) ↔
      argNat w / 128 ≠ 0 ∨ ¬ gateIdInRange g (argNat w / 64 % 2) (argNat w % 64) := by
  have hzero : gateZeroField w = 0 ↔ argNat w / 128 = 0 := by rw [← BitVec.toNat_inj, gateZeroField_toNat]; rfl
  rw [← instField_toNat, ← idField_toNat, ← contains_iff_gateIdInRange, ne_eq, ← hzero, decodeG]
  split
  · simp_all
  · split <;> simp_all

/-- The words that the statements call reserved are those that the decoder rejects (R97). The branches of `decode` are
numbered as in `encode_of_decode`. -/
theorem reservedWord_iff_decode_error {g : GateRanges} {w : CmdWord} :
    ReservedWord g w ↔ ∃ e, decode g w = .error e := by
  have hn := opNat_eq w
  unfold decode
  split
  case h_14 =>
    have : opNat w ∈ [0, 14, 15] := by
      rw [hn]
      clear hn
      generalize opField w = o at *
      revert o
      decide
    simp [ReservedWord, this]
  all_goals
    rename_i hop
    rw [hop] at hn
  case h_2 => simp [ReservedWord, hn, plainOpcodes, gateOpcodes]
  case h_3 => simp [ReservedWord, hn, plainOpcodes, gateOpcodes, decodeS_error_iff]
  case h_5 | h_6 | h_7 => simp [ReservedWord, hn, plainOpcodes, gateOpcodes, decodeG_error_iff]
  all_goals simp [ReservedWord, hn, plainOpcodes, gateOpcodes, decodeN_error_iff]

theorem not_reservedWord_of_decode {g : GateRanges} {w : CmdWord} {i : Instr} (h : decode g w = .ok i) :
    ¬ ReservedWord g w := by
  rw [reservedWord_iff_decode_error, h]
  rintro ⟨_, he⟩
  cases he

/-! ### The opcode map -/

/-- An encoded command selects its row (R96), by the lemma of each command. -/
theorem encode_selects_row (i : Instr) : selects (encode i) i.row = true := by
  cases i
  case constrain => exact Laws.EncodingSelectsItsRow.constrain
  case withTargetFrequency freq => exact Laws.EncodingSelectsItsRow.withTargetFrequency freq
  case withSource src => exact Laws.EncodingSelectsItsRow.withSource src
  case freeze => exact Laws.EncodingSelectsItsRow.freeze
  case gateEnable k id => exact Laws.EncodingSelectsItsRow.gateEnable k id
  case gateDisable k id => exact Laws.EncodingSelectsItsRow.gateDisable k id
  case gateStatus k id => exact Laws.EncodingSelectsItsRow.gateStatus k id
  case clockSource => exact Laws.EncodingSelectsItsRow.clockSource
  case slowClockFreq => exact Laws.EncodingSelectsItsRow.slowClockFreq
  case mainOscFreq => exact Laws.EncodingSelectsItsRow.mainOscFreq
  case pllRatio => exact Laws.EncodingSelectsItsRow.pllRatio
  case masterClockFreq => exact Laws.EncodingSelectsItsRow.masterClockFreq
  case appliedPrescaler => exact Laws.EncodingSelectsItsRow.appliedPrescaler

theorem row_mem_opcodeMap (i : Instr) : i.row ∈ opcodeMap := by
  cases i <;> simp [Instr.row, Instr.opcode, opcodeMap]

/-- The row that the opcode map has for an opcode. -/
def rowOfOpcode (o : BitVec 4) : CmdWord × CmdWord := opcodeMap.getD (o.toNat - 1) (0, 0)

/-- Every mask of the opcode map keeps the opcode (R96). -/
theorem opcodeMap_mask : ∀ r ∈ opcodeMap, opField r.2 = 0xF := by
  simp [opcodeMap, opField]

/-- Every match word of the opcode map stands in the place of its opcode (R96). -/
theorem opcodeMap_match : ∀ r ∈ opcodeMap, r = rowOfOpcode (opField r.1) := by
  simp [opcodeMap, opField, rowOfOpcode]

/-- A word can select the row of its own opcode only. -/
theorem row_of_selects {w : CmdWord} {r : CmdWord × CmdWord} (hr : r ∈ opcodeMap) (h : selects w r = true) :
    r = rowOfOpcode (opField w) := by
  have hmatch : w &&& r.2 = r.1 := eq_of_beq h
  have hop : opField r.1 = opField w :=
    calc opField r.1 = opField (w &&& r.2) := by rw [hmatch]
      _ = opField w &&& opField r.2 := BitVec.extractLsb'_and
      _ = opField w := by rw [opcodeMap_mask r hr]; exact BitVec.and_allOnes
  rw [opcodeMap_match r hr, hop]

/-- A word selects at most one row (R107): every selected row is the one of its opcode, and the map lists each row once. -/
theorem selected_rows_length_le_one (w : CmdWord) : (opcodeMap.filter (selects w)).length ≤ 1 := by
  have hnodup : (opcodeMap.filter (selects w)).Nodup := List.Nodup.filter _ (by decide)
  have hall : opcodeMap.filter (selects w) = List.replicate _ (rowOfOpcode (opField w)) :=
    List.eq_replicate_of_mem fun r hr => row_of_selects (List.mem_of_mem_filter hr) (List.of_mem_filter hr)
  rw [hall] at hnodup
  exact List.nodup_replicate.mp hnodup

/-- A word selects the row of the command that it encodes and no other (R107). -/
theorem selected_rows_encode (i : Instr) : opcodeMap.filter (selects (encode i)) = [i.row] := by
  have hmem : i.row ∈ opcodeMap.filter (selects (encode i)) :=
    List.mem_filter.mpr ⟨row_mem_opcodeMap i, encode_selects_row i⟩
  obtain ⟨r, hr⟩ := List.length_eq_one_iff.mp
    (Nat.le_antisymm (selected_rows_length_le_one _) (List.length_pos_of_mem hmem))
  rw [hr] at hmem ⊢
  rw [List.mem_singleton.mp hmem]

/-- Settles O3: the decoder answers either with the command that the word encodes, or with an error on the reserved words. -/
theorem everyWordIsOneCommandOrReserved : Obligations.EveryWordIsOneCommandOrReserved := by
  intro g w
  refine ⟨?_, selected_rows_length_le_one w⟩
  cases hd : decode g w with
  | ok i =>
    obtain ⟨_, rfl⟩ := encode_of_decode hd
    exact .inl ⟨not_reservedWord_of_decode hd, i, rfl, selected_rows_encode i⟩
  | error e => exact .inr ⟨reservedWord_iff_decode_error.mpr ⟨e, hd⟩, e, rfl⟩

/-! ### The assembler -/

/-- A line assembles to a word only as the encoding of a well-formed command (R105). -/
theorem assembleLine_eq_word {g : GateRanges} {line : List Char} {w : CmdWord} (h : assembleLine g line = .word w) :
    ∃ i, WellFormed g i = true ∧ encode i = w := by
  unfold assembleLine at h
  split at h
  case isTrue => cases h
  case isFalse =>
    split at h
    case h_1 => cases h
    case h_2 =>
      split at h
      case h_2 => cases h
      case h_1 i _ =>
        split at h
        case isFalse => cases h
        case isTrue hwf =>
          cases h
          exact ⟨i, hwf, rfl⟩

/-- Settles O5: a word of the assembler encodes a well-formed command (`assembleLine_eq_word`), so it decodes. -/
theorem assemblerEmitsOnlyCommands : Obligations.AssemblerEmitsOnlyCommands := by
  intro g line w h
  obtain ⟨i, hwf, rfl⟩ := assembleLine_eq_word h
  have hd := decode_encode hwf
  exact ⟨not_reservedWord_of_decode hd, i, hwf, hd⟩

/-! ### The step on a reserved word -/

/-- A ready block without reset refuses a word that the decoder rejects (R97, R252). -/
theorem step_of_rejectedWord {s : State} {w : CmdWord} {e : Reject} (hr : resetAsserted s = false)
    (hb : s.seq.busy = false) (hw : presentedWord s = some w) (hd : fetchDecode s w = .error e) :
    step s = .next (refuse .refIllegalCommand (takeWord (sampleReset s))) := by
  simp only [step, hr, hb, hw, hd, Bool.false_eq_true, if_false]

theorem afterPoll_cmdIn {site : Seq} {b : Bit} {done : State → State} {s : State} (h : (done s).cmdIn = s.cmdIn) :
    (afterPoll site b done s).cmdIn = s.cmdIn := by
  rcases afterPoll_cases site b done s with ⟨_, he⟩ | ⟨_, _, he⟩ | ⟨_, _, he⟩ | ⟨_, _, he⟩ <;> rw [he]
  · exact h
  all_goals rfl

/-- The sequencer takes no word (spec/42_commit_sequencer.md R180). -/
theorem sequencerStep_cmdIn {s : State} (hb : s.seq.busy = true) : (sequencerStep s).cmdIn = s.cmdIn := by
  rcases sequencerStep_cases hb with
    ⟨_, he⟩ | ⟨_, he⟩ | ⟨_, he⟩ | ⟨_, he⟩ | ⟨_, he⟩ | ⟨_, he⟩ | ⟨_, he⟩ <;> rw [he]
  · rcases stepEval_cases s with ⟨_, _, hs⟩ | ⟨_, _, hs⟩ <;> rw [hs] <;> rfl
  · rfl
  · exact afterPoll_cmdIn (s := hwReadPllLock s) rfl
  · rfl
  · exact afterPoll_cmdIn (s := hwReadMckRdy s) rfl
  · rfl
  · exact afterPoll_cmdIn (s := hwReadMckRdy s) rfl

/-- A busy block without reset leaves the presented words alone (R180). -/
theorem step_cmdIn_of_busy {s t : State} (hr : resetAsserted s = false) (hb : s.seq.busy = true)
    (h : step s = .next t) : t.cmdIn = s.cmdIn := by
  have hstep : step s = .next (sequencerStep (sampleReset s)) := by
    simp only [step, hr, hb, Bool.false_eq_true, if_false, if_true]
  obtain rfl : sequencerStep (sampleReset s) = t := Host.Outcome.next.inj (hstep.symm.trans h)
  exact sequencerStep_cmdIn (s := sampleReset s) hb

/-- Settles O7: the decoder rejects a reserved word (`reservedWord_iff_decode_error`), so a ready block refuses it, and a
busy block takes no word at all. -/
theorem reservedWordsAreRefused : Obligations.ReservedWordsAreRefused := by
  intro s w rest hr hc hres
  refine ⟨fun hb => ?_, fun hb t h => ?_, rfl⟩
  · obtain ⟨e, hd⟩ := reservedWord_iff_decode_error.mp hres
    have hw : presentedWord s = some w := congrArg List.head? hc
    rw [step_of_rejectedWord hr hb hw hd, takeWord_sampleReset_of_cmdIn hc]
    rfl
  · rw [step_cmdIn_of_busy hr hb h, hc]

/-! ### The words of the spec -/

/-- Settles O4, by running the decoder on each word. -/
theorem specWordsDecode : Obligations.SpecWordsDecode := by
  unfold Obligations.SpecWordsDecode
  decide

end Sys2Proof.Machine

/-! # Builder: the commands that precede a FREEZE (spec/40_builder.md R120 to R122)

A state that takes a word runs the command (`whenTaken_of_ready`), and the admission of the builder's commands
(spec/60_exceptions.md R253) is decided by `seq` alone: one equation for each of its three outcomes, which serves every
command that passes through it. -/

namespace Sys2Proof.Machine

/-! ### Admission -/

theorem whenTaken_of_ready {s : State} (hb : s.seq.busy = false) (act : State → State) : whenTaken s act = act s := by
  simpa only [hb, Bool.false_eq_true, false_and, true_and, false_or] using whenTaken_cases s act

theorem not_busy_of_consumed {s : State} (hs : s.seq = .frozen ∨ s.seq = .fault) : s.seq.busy = false := by
  rcases hs with hs | hs <;> rw [hs] <;> rfl

/-- In `RAW` there is no builder yet. -/
theorem builderCommand_of_raw {s : State} (hs : s.seq = .raw) (act : State → State) :
    whenTaken s (inBuilding · act) = refuse .refNotConstrained s := by
  rw [whenTaken_of_ready (by rw [hs]; rfl)]
  simpa [hs] using inBuilding_cases s act

/-- In `BUILDING` the command acts. -/
theorem builderCommand_of_building {s : State} (hs : s.seq = .building) (act : State → State) :
    whenTaken s (inBuilding · act) = act s := by
  rw [whenTaken_of_ready (by rw [hs]; rfl)]
  simpa [hs] using inBuilding_cases s act

/-- After a FREEZE, whether it succeeded or faulted, the builder is used up. -/
theorem builderCommand_of_consumed {s : State} (hs : s.seq = .frozen ∨ s.seq = .fault) (act : State → State) :
    whenTaken s (inBuilding · act) = refuse .refBuilderConsumed s := by
  rw [whenTaken_of_ready (not_busy_of_consumed hs)]
  rcases hs with hs | hs <;> simpa [hs] using inBuilding_cases s act

/-! ### CONSTRAIN -/

theorem exec_constrain_of_raw {s : State} (hs : s.seq = .raw) :
    exec .constrain s = .next (respond .ok 0 { s with bSrc := 0, bTv := false, seq := .building }) := by
  have hb : s.seq.busy = false := by rw [hs]; rfl
  simp only [exec, execConstrain, whenTaken_of_ready hb, if_pos hs]

theorem exec_constrain_of_ne_raw {s : State} (hb : s.seq.busy = false) (hs : s.seq ≠ .raw) :
    exec .constrain s = .next (refuse .refAlreadyConstrained s) := by
  simp only [exec, execConstrain, whenTaken_of_ready hb, if_neg hs]

/-- Settles O12: the state is ready in all four cases, and CONSTRAIN asks only whether it is `RAW`. -/
theorem constrainYieldsTheEmptyBuilderOnce : Obligations.ConstrainYieldsTheEmptyBuilderOnce := by
  intro s
  refine ⟨exec_constrain_of_raw, fun hs => ?_⟩
  have hready : s.seq.busy = false ∧ s.seq ≠ .raw := by
    rcases hs with hs | hs | hs <;> rw [hs] <;> decide
  obtain ⟨hb, hraw⟩ := hready
  exact exec_constrain_of_ne_raw hb hraw

/-! ### WITH_TARGET_FREQUENCY -/

theorem exec_withTargetFrequency (freq : Freq) (s : State) :
    exec (.withTargetFrequency freq) s =
      .next (whenTaken s (inBuilding · fun s => respond .ok 0 { s with bTgt := freq, bTv := true })) := rfl

/-- Settles O13: the frequency meets no test but the admission of a builder command. -/
theorem targetFrequencyIsRecorded : Obligations.TargetFrequencyIsRecorded := by
  intro freq s
  rw [exec_withTargetFrequency]
  refine ⟨fun hs => ?_, fun hs => ?_, fun hs => ?_⟩
  · rw [builderCommand_of_building hs]; rfl
  · rw [builderCommand_of_raw hs]; rfl
  · rw [builderCommand_of_consumed hs]; rfl

/-! ### WITH_SOURCE -/

/-- A source that is not reserved meets no test but the admission of a builder command. -/
theorem exec_withSource_of_ne_reserved {src : BitVec 2} (hsrc : src ≠ reservedSource) (s : State) :
    exec (.withSource src) s = .next (whenTaken s (inBuilding · fun s => respond .ok 0 { s with bSrc := src })) := by
  simp only [exec, execWithSource, if_neg hsrc]

/-- The reserved code is refused before the admission is tested (spec/30_encoding.md R99). -/
theorem exec_withSource_reserved {s : State} (hb : s.seq.busy = false) :
    exec (.withSource reservedSource) s = .next (refuse .refIllegalCommand s) := by
  simp only [exec, execWithSource, whenTaken_of_ready hb, if_true]

/-- Settles O14: a source other than 3 passes to the admission of a builder command, and 3 never gets there. -/
theorem sourceIsRecorded : Obligations.SourceIsRecorded := by
  intro src s
  refine ⟨fun hsrc hs => ?_, fun hsrc hs => ?_, fun hsrc hs => ?_, fun hsrc hb => ?_⟩
  · rw [exec_withSource_of_ne_reserved hsrc, builderCommand_of_building hs]; rfl
  · rw [exec_withSource_of_ne_reserved hsrc, builderCommand_of_raw hs]; rfl
  · rw [exec_withSource_of_ne_reserved hsrc, builderCommand_of_consumed hs]; rfl
  · subst hsrc
    exact exec_withSource_reserved hb

end Sys2Proof.Machine

/-! # Encoder: the results and the faults of each path (spec/41_encoder.md R140 to R155)

One equation for each of the three ways of `Encode`, and for each path an `↔` that says when it answers a fault. The table of prescalers, the quotient and the multiplier have their arithmetic stated apart from the paths. -/

namespace Sys2Proof.Machine

/-! ### The three ways of `Encode` -/

theorem encodeConfig_of_unsupported {t : Vector (Option Freq) 8} {cls : OscClass} (hl : oscLookup t cls = none)
    (src : BitVec 2) (tv : Bool) (tgt : Freq) :
    encodeConfig t src tv tgt cls = .error .unsupportedOscillatorReading := by
  simp only [encodeConfig, hl]

theorem encodeConfig_pll {t : Vector (Option Freq) 8} {cls : OscClass} {main : Freq} (hl : oscLookup t cls = some main)
    (tv : Bool) (tgt : Freq) :
    encodeConfig t Config.cssPll tv tgt cls =
      encodePll main (resolveTarget tv tgt (naturalFreq Config.cssPll main)) := by
  simp only [encodeConfig, hl, if_true]

theorem encodeConfig_divisor {t : Vector (Option Freq) 8} {cls : OscClass} {main : Freq} {src : BitVec 2}
    (hl : oscLookup t cls = some main) (hsrc : src ≠ Config.cssPll) (tv : Bool) (tgt : Freq) :
    encodeConfig t src tv tgt cls =
      encodeDivisor src main (naturalFreq src main) (resolveTarget tv tgt (naturalFreq src main)) := by
  simp only [encodeConfig, hl, if_neg hsrc]

/-! ### The oscillator class (R141) -/

theorem oscLookup_pos {t : Vector (Option Freq) 8} (h : oscTablePositive t = true) {cls : OscClass} {main : Freq}
    (hl : oscLookup t cls = some main) : 0 < main.toNat :=
  Nat.pos_of_ne_zero fun h0 => oscLookup_ne_zero h hl (BitVec.eq_of_toNat_eq h0)

/-- On both paths the main frequency of the result is the table's. -/
theorem encodeConfig_main {t : Vector (Option Freq) 8} {src : BitVec 2} {tv : Bool} {tgt : Freq} {cls : OscClass}
    {main : Freq} {f : Fields} (hl : oscLookup t cls = some main) (h : encodeConfig t src tv tgt cls = .ok f) :
    f.main = main := by
  by_cases hsrc : src = Config.cssPll
  · rw [hsrc, encodeConfig_pll hl] at h
    obtain ⟨_, rfl⟩ := encodePll_ok h
    rfl
  · rw [encodeConfig_divisor hl hsrc] at h
    obtain ⟨_, hmain, _⟩ := encodeDivisor_ok h
    exact hmain

/-- Settles O15: without a main frequency no path is entered, and both paths hand on the table's. -/
theorem unsupportedClassFaultsFirst : Obligations.UnsupportedClassFaultsFirst := by
  refine ⟨fun t src tv tgt cls => ⟨fun hl => encodeConfig_of_unsupported hl src tv tgt,
    fun _ _ hl h => encodeConfig_main hl h, fun hpos main hl => ⟨oscLookup_pos hpos hl, main.isLt⟩⟩, ?_⟩
  decide

/-! ### The target (R142, R143) -/

/-- `Encode` sees of the target only what it resolves to. -/
theorem encodeConfig_congr_target {t : Vector (Option Freq) 8} {src : BitVec 2} {tv tv' : Bool} {tgt tgt' : Freq}
    {cls : OscClass} {main : Freq} (hl : oscLookup t cls = some main)
    (h : resolveTarget tv tgt (naturalFreq src main) = resolveTarget tv' tgt' (naturalFreq src main)) :
    encodeConfig t src tv tgt cls = encodeConfig t src tv' tgt' cls := by
  simp only [encodeConfig, hl, h]

theorem naturalFreq_slow (main : Freq) : naturalFreq 0 main = 32768 := rfl

theorem naturalFreq_of_ne_slow {src : BitVec 2} (hsrc : src ≠ 0) (main : Freq) : naturalFreq src main = main.toNat :=
  if_neg hsrc

/-- The natural frequency as a target of 32 bits. -/
theorem naturalFreq_eq_toNat (src : BitVec 2) (main : Freq) :
    naturalFreq src main = (if src = 0 then 32768 else main : Freq).toNat := by
  by_cases hsrc : src = 0
  · rw [if_pos hsrc, hsrc, naturalFreq_slow]; rfl
  · rw [if_neg hsrc, naturalFreq_of_ne_slow hsrc]

/-- Only a table's frequency can be 0: the slow oscillator's is 32768. -/
theorem naturalFreq_eq_zero_iff {src : BitVec 2} {main : Freq} : naturalFreq src main = 0 ↔ src ≠ 0 ∧ main = 0 := by
  by_cases hsrc : src = 0
  · subst hsrc
    exact iff_of_false (by rw [naturalFreq_slow]; decide) fun ⟨hne, _⟩ => hne rfl
  · rw [naturalFreq_of_ne_slow hsrc, and_iff_right hsrc]
    exact BitVec.toNat_inj (y := 0)

/-- Settles O16: both targets resolve to the natural frequency. -/
theorem unsetTargetIsTheNaturalFrequency : Obligations.UnsetTargetIsTheNaturalFrequency :=
  fun _ src _ _ main hl => encodeConfig_congr_target hl (naturalFreq_eq_toNat src main)

/-! ### The divisor path (R144 to R148) -/

theorem encodeDivisor_eq_error_iff {src : BitVec 2} {main : Freq} {natural target : Nat} {e : FaultKind} :
    encodeDivisor src main natural target = .error e ↔
      e = .invalidFrequencyTarget ∧ (target = 0 ∨ natural < target) := by
  by_cases hbad : target = 0 ∨ natural < target
  · simp only [encodeDivisor, hbad, if_true, Except.error.injEq, and_true]
    exact eq_comm
  · simp only [encodeDivisor, hbad, if_false, reduceCtorEq, and_false]

theorem encodeDivisor_eq_ok_iff {src : BitVec 2} {main : Freq} {natural target : Nat} {f : Fields} :
    encodeDivisor src main natural target = .ok f ↔
      (1 ≤ target ∧ target ≤ natural) ∧
      f = { main := main, css := src, pres := (presTable (natural / target)).1, mul := none,
            applied := (presTable (natural / target)).2,
            mck := BitVec.ofNat 32 (natural / (presTable (natural / target)).2.toNat),
            ratio := BitVec.ofNat 32 (natural / (presTable (natural / target)).2.toNat / main.toNat) } := by
  by_cases hbad : target = 0 ∨ natural < target
  · have hrange : ¬ (1 ≤ target ∧ target ≤ natural) := by omega
    simp only [encodeDivisor, if_pos hbad, hrange, reduceCtorEq, false_and]
  · have hrange : 1 ≤ target ∧ target ≤ natural := by omega
    simp only [encodeDivisor, if_neg hbad, hrange, Except.ok.injEq, and_self, true_and]
    exact eq_comm

/-- With a target set, the slow and the main source take the divisor path from their own frequency. -/
theorem encodeConfig_of_divisorSource {t : Vector (Option Freq) 8} {src : BitVec 2} {cls : OscClass} {main : Freq}
    {source : Nat} (hl : oscLookup t cls = some main) (hs : src = 0 ∧ source = 32768 ∨ src = 1 ∧ source = main.toNat)
    (tgt : Freq) :
    source < 2 ^ 32 ∧ encodeConfig t src true tgt cls = encodeDivisor src main source tgt.toNat := by
  have hsource : src ≠ Config.cssPll ∧ source = naturalFreq src main := by
    rcases hs with ⟨rfl, rfl⟩ | ⟨rfl, rfl⟩ <;> exact ⟨by decide, rfl⟩
  obtain ⟨hsrc, rfl⟩ := hsource
  exact ⟨naturalFreq_lt src main, encodeConfig_divisor hl hsrc true tgt⟩

/-- Settles O17, by the two conditions of the divisor path; a target equal to the source has divisor 1. -/
theorem divisorPathValidatesTheTarget : Obligations.DivisorPathValidatesTheTarget := by
  intro t src tgt cls main source hl hs
  rw [(encodeConfig_of_divisorSource hl hs tgt).2]
  refine ⟨fun hbad => encodeDivisor_eq_error_iff.mpr ⟨rfl, hbad⟩,
    fun hrange => ⟨_, encodeDivisor_eq_ok_iff.mpr ⟨hrange, rfl⟩⟩, fun hpos htgt => ?_⟩
  have hone : presTable (source / tgt.toNat) = (0, 1) := by
    rw [htgt, Nat.div_self hpos]; rfl
  refine ⟨_, encodeDivisor_eq_ok_iff.mpr ⟨⟨htgt ▸ hpos, htgt.le⟩, rfl⟩, ?_, ?_⟩
  · exact congrArg Prod.fst hone
  · exact congrArg Prod.snd hone

/-! ### The table of prescalers (R146, R147) -/

/-- From 5 up the divisor is in one of the rows that span a range. -/
theorem presTable_of_five_le {d : Nat} (h : 5 ≤ d) :
    presTable d = if d ≤ 8 then (3, 8) else if d ≤ 16 then (4, 16) else if d ≤ 32 then (5, 32) else (6, 64) := by
  unfold presTable
  rw [if_neg (by omega), if_neg (by omega), if_neg (by omega), if_neg (by omega)]

/-- Settles O18: the first four rows hold one divisor each, the others follow `presTable_of_five_le`. -/
theorem prescalerTableIsExact : Obligations.PrescalerTableIsExact := by
  intro d _
  refine ⟨?one, ?two, ?three, ?four, fun hlo hhi => ?upTo8, fun hlo hhi => ?upTo16, fun hlo hhi => ?upTo32,
    fun hlo => ?above⟩
  case one | two | three | four => rintro rfl; rfl
  case upTo8 => rw [presTable_of_five_le hlo, if_pos hhi]
  case upTo16 => rw [presTable_of_five_le (by omega), if_neg (by omega), if_pos hhi]
  case upTo32 => rw [presTable_of_five_le (by omega), if_neg (by omega), if_neg (by omega), if_pos hhi]
  case above => rw [presTable_of_five_le (by omega), if_neg (by omega), if_neg (by omega), if_neg (by omega)]

theorem presDecode_of_ne_seven {c : BitVec 3} (hc : c ≠ 7) : presDecode c = 2 ^ c.toNat := if_neg hc

/-- Settles O19: the applied prescaler is the decoded code (`presTable_applied`). -/
theorem appliedPrescalerIsWhatTheCodeDenotes : Obligations.AppliedPrescalerIsWhatTheCodeDenotes := by
  refine ⟨fun d _ => ?_, rfl, fun c => presDecode_of_ne_seven⟩
  obtain ⟨hmem, hdec⟩ := presTable_applied d
  refine ⟨hdec.symm, hmem, fun hseven => ?_, fun hne => ?_⟩
  · rw [← hdec, hseven]; rfl
  · rw [← hdec, presDecode_of_ne_seven hne]

theorem presTable_applied_bounds (d : Nat) : 1 ≤ (presTable d).2.toNat ∧ (presTable d).2.toNat ≤ 64 := by
  obtain ⟨hmem, _⟩ := presTable_applied d
  simp only [List.mem_cons, List.not_mem_nil, or_false] at hmem
  omega

/-- Settles O20: the fields are those of `encodeDivisor_eq_ok_iff`; the master clock is a part of a 32-bit source
frequency, and not 0 because no prescaler is above 64. -/
theorem divisorPathResults : Obligations.DivisorPathResults := by
  intro t src tgt cls main source f hl hs h
  obtain ⟨hlt, hpath⟩ := encodeConfig_of_divisorSource hl hs tgt
  rw [hpath] at h
  obtain ⟨_, rfl⟩ := encodeDivisor_eq_ok_iff.mp h
  dsimp only
  obtain ⟨hpos, hle64⟩ := presTable_applied_bounds (source / tgt.toNat)
  generalize (presTable (source / tgt.toNat)).2.toNat = applied at hpos hle64 ⊢
  have hle : source / applied ≤ source := Nat.div_le_self _ _
  have hratio : source / applied / main.toNat < 2 ^ 32 := ((Nat.div_le_self _ _).trans hle).trans_lt hlt
  rw [toNat_ofNat_of_lt (hle.trans_lt hlt), toNat_ofNat_of_lt hratio]
  exact ⟨rfl, rfl, rfl, rfl, rfl, hle, fun h64 => Nat.div_pos (hle64.trans h64) hpos, rfl⟩

/-! ### The quotient and the multiplier of the PLL path, which has no invalid target (R149, R150) -/

/-- Settles O21: a floor is fixed by the two multiples of the divisor around the dividend, here `q` times `2 * main`
and the next one. -/
theorem pllQuotientRoundsTiesUp : Obligations.PllQuotientRoundsTiesUp := by
  intro target main q hpos
  have hfloor : pllQuotient target main = q ↔
      q * (2 * main) ≤ 2 * target + main ∧ 2 * target + main ≤ q * (2 * main) + 2 * main - 1 :=
    Nat.div_eq_iff (by omega)
  have hcast : 2 * (q : Int) * main = (q * (2 * main) : Nat) := by push_cast; ring
  refine ⟨?_, rfl, ?_, fun _ _ => by omega⟩
  · rw [hfloor, hcast]
    generalize q * (2 * main) = multiple
    omega
  · exact Nat.div_eq_of_lt (by omega)

/-- A target below the main frequency is nearest to 0 or to 1 times it. -/
theorem pllQuotient_le_one {target main : Nat} (h : target < main) : pllQuotient target main ≤ 1 :=
  Nat.le_of_lt_succ (Nat.div_lt_of_lt_mul (by omega))

/-- The clamp in terms of the quotient. -/
theorem pllMultiplier_eq (target main : Nat) :
    pllMultiplier target main =
      if pllQuotient target main = 0 then 2
      else if pllQuotient target main ≤ 1024 then 2 * pllQuotient target main else 2048 := by
  unfold pllMultiplier clamp Config.mulMin Config.mulMax
  split_ifs <;> omega

/-- On the PLL path the one fault besides an unsupported class is an overflow (R150, R152). -/
theorem encodePll_eq_error_iff {main : Freq} {target : Nat} {e : FaultKind} :
    encodePll main target = .error e ↔
      e = .frequencyOverflow ∧ 2 ^ 32 ≤ main.toNat * pllMultiplier target main.toNat := by
  by_cases hover : 2 ^ 32 ≤ main.toNat * pllMultiplier target main.toNat
  · simp only [encodePll, hover, if_true, Except.error.injEq, and_true]
    exact eq_comm
  · simp only [encodePll, hover, if_false, reduceCtorEq, and_false]

theorem encodeConfig_pll_ne_invalidTarget (t : Vector (Option Freq) 8) (tv : Bool) (tgt : Freq) (cls : OscClass) :
    encodeConfig t Config.cssPll tv tgt cls ≠ .error .invalidFrequencyTarget := by
  intro h
  cases hl : oscLookup t cls with
  | none => rw [encodeConfig_of_unsupported hl] at h; cases h
  | some main =>
    rw [encodeConfig_pll hl] at h
    obtain ⟨hkind, _⟩ := encodePll_eq_error_iff.mp h
    cases hkind

/-- Settles O22, by the quotient's ranges (`pllMultiplier_eq`). -/
theorem pllMultiplierIsClamped : Obligations.PllMultiplierIsClamped := by
  intro target main
  obtain ⟨hlo, hhi, heven⟩ := pllMultiplier_bounds target main
  refine ⟨fun hzero => ?_, fun hpos hmid => ?_, fun hbig => ?_, fun hbelow => ?_, hlo, hhi, heven,
    encodeConfig_pll_ne_invalidTarget⟩
  · rw [pllMultiplier_eq, if_pos hzero]
  · rw [pllMultiplier_eq, if_neg (by omega), if_pos hmid]
  · rw [pllMultiplier_eq, if_neg (by omega), if_neg (by omega)]
  · have hone := pllQuotient_le_one hbelow
    rw [pllMultiplier_eq]
    split_ifs <;> omega

/-! ### The results and the overflow of the PLL path (R151 to R153) -/

theorem exists_encodePll_ok {main : Freq} {target : Nat}
    (hfit : main.toNat * pllMultiplier target main.toNat < 2 ^ 32) : ∃ f, encodePll main target = .ok f := by
  cases h : encodePll main target with
  | ok f => exact ⟨f, rfl⟩
  | error e =>
    obtain ⟨_, hover⟩ := encodePll_eq_error_iff.mp h
    exact absurd hfit hover.not_gt

/-- Settles O23: what the path answers is `encodePll_ok`, and neither the product nor the multiplier loses a bit where it is
narrowed. -/
theorem pllPathResults : Obligations.PllPathResults := by
  rintro t tgt cls main mul hl hpos rfl
  have hpath : encodeConfig t 2 true tgt cls = encodePll main tgt.toNat := encodeConfig_pll hl true tgt
  rw [hpath]
  refine ⟨fun hover => encodePll_eq_error_iff.mpr ⟨rfl, hover⟩, fun hfit => ?_⟩
  obtain ⟨f, hf⟩ := exists_encodePll_ok hfit
  obtain ⟨_, rfl⟩ := encodePll_ok hf
  obtain ⟨_, hle, _⟩ := pllMultiplier_bounds tgt.toNat main.toNat
  have hmul : (BitVec.ofNat 12 (pllMultiplier tgt.toNat main.toNat)).toNat = pllMultiplier tgt.toNat main.toNat :=
    toNat_ofNat_of_lt (hle.trans_lt (by decide))
  refine ⟨_, _, hf, rfl, rfl, rfl, rfl, hmul, hmul, toNat_ofNat_of_lt hfit, ?_⟩
  rw [Nat.mul_div_cancel_left _ hpos]
  exact toNat_ofNat_of_lt (hle.trans_lt (by decide))

/-! ### The faults (R154) -/

/-- The largest multiplier is 2^11, so a product of 2^32 needs a main frequency of 2^21. -/
theorem main_ge_of_overflow {main target : Nat} (h : 2 ^ 32 ≤ main * pllMultiplier target main) : 2 ^ 21 ≤ main := by
  obtain ⟨_, hle, _⟩ := pllMultiplier_bounds target main
  have hprod : 2 ^ 32 ≤ main * 2048 := h.trans (Nat.mul_le_mul_left main hle)
  omega

/-- Settles O24, by the three ways of `Encode`: each has one fault of its own, with its condition. -/
theorem encoderFaultsBelongToTheirPath : Obligations.EncoderFaultsBelongToTheirPath := by
  intro t src tv tgt cls e h
  rcases encodeConfig_cases t src tv tgt cls with ⟨hl, hway⟩ | ⟨main, hl, hsrc, hway⟩ | ⟨main, hl, hsrc, hway⟩
  · rw [hway] at h
    cases h
    exact .inl ⟨rfl, hl⟩
  · rw [hway] at h
    obtain ⟨hkind, hover⟩ := encodePll_eq_error_iff.mp h
    exact .inr (.inr (.inr ⟨hkind, hsrc, main, hl, main_ge_of_overflow hover⟩))
  · rw [hway] at h
    obtain ⟨hkind, hbad⟩ := encodeDivisor_eq_error_iff.mp h
    cases tv with
    | true => exact .inr (.inl ⟨hkind, hsrc, rfl, main, hl, hbad⟩)
    | false =>
      have hzero : naturalFreq src main = 0 := hbad.resolve_right (lt_irrefl _)
      obtain ⟨hne, hmain⟩ := naturalFreq_eq_zero_iff.mp hzero
      exact .inr (.inr (.inl ⟨hkind, hsrc, hne, rfl, hmain ▸ hl⟩))

end Sys2Proof.Machine

/-! # Commit sequencer: the single steps (spec/42_commit_sequencer.md R170 to R178)

A busy block without reset takes the step of its sequencer (`step_of_sequencer`). The three waits are one operation, the poll
rule, so their four outcomes are stated once (`step_poll_outcomes`); what the waits have of their own is the site and the
action on a 1. -/

namespace Sys2Proof.Machine

/-! ### The step of a busy block -/

theorem step_of_sequencer {s : State} (hr : resetAsserted s = false) (hb : s.seq.busy = true) :
    step s = .next (sequencerStep (sampleReset s)) := by
  simp only [step, hr, hb, Bool.false_eq_true, if_false, if_true]

theorem eq_sequencerStep_of_step {s t : State} (hr : resetAsserted s = false) (hb : s.seq.busy = true)
    (h : step s = .next t) : t = sequencerStep (sampleReset s) :=
  Host.Outcome.next.inj (h.symm.trans (step_of_sequencer hr hb))

/-- The step that the sequencer takes in state `q` (spec/10_state.md R21). -/
def sequencerStepAt : Seq → State → State
  | .sEval => stepEval
  | .sWritePll => stepWritePll
  | .sWaitLock => stepWaitLock
  | .sWriteCss => stepWriteCss
  | .sWaitRdy1 => stepWaitRdy1
  | .sWritePres => stepWritePres
  | .sWaitRdy2 => stepWaitRdy2
  | .raw | .building | .frozen | .fault => id

theorem sequencerStep_eq_at (s : State) : sequencerStep s = sequencerStepAt s.seq s := by
  unfold sequencerStep
  cases s.seq <;> rfl

/-- A block in the busy state `q` takes the step of `q`. -/
theorem step_of_busySeq {s : State} {q : Seq} (hr : resetAsserted s = false) (hs : s.seq = q) (hq : q.busy = true) :
    step s = .next (sequencerStepAt q (sampleReset s)) := by
  subst hs
  rw [step_of_sequencer hr hq, sequencerStep_eq_at, sampleReset_seq]

/-! ### Admission (R170) -/

theorem exec_freeze (s : State) :
    exec .freeze s = .next (whenTaken s (inBuilding · fun s => { s with seq := .sEval })) := rfl

/-- Settles O25: FREEZE meets no test but the admission of a builder command. -/
theorem freezeIsAdmittedOnlyWhileBuilding : Obligations.FreezeIsAdmittedOnlyWhileBuilding := by
  intro s
  rw [exec_freeze]
  refine ⟨fun hs => ?_, fun hs => ?_, fun hs => ?_⟩
  · rw [builderCommand_of_building hs]
  · rw [builderCommand_of_raw hs]; rfl
  · rw [builderCommand_of_consumed hs]; rfl

/-! ### S_EVAL (R171) -/

theorem stepEval_of_error {s : State} {e : FaultKind}
    (h : encodeConfig s.params.oscTable s.bSrc s.bTv s.bTgt (oscClassAnswer s) = .error e) :
    stepEval s = raiseFault e Seq.sEval.code (hwReadOscClass s) := by
  simp only [stepEval, h]

theorem stepEval_of_ok {s : State} {f : Fields}
    (h : encodeConfig s.params.oscTable s.bSrc s.bTv s.bTgt (oscClassAnswer s) = .ok f) :
    stepEval s = { hwReadOscClass s with
      enc := s.enc.stage s.bSrc f
      seq := if s.bSrc = Config.cssPll then .sWritePll else .sWriteCss } := by
  simp only [stepEval, h]

/-- Settles O26: the encoder's answer decides between fault entry and staging. -/
theorem evalStepFaultsOrStages : Obligations.EvalStepFaultsOrStages := by
  intro s hr hs
  have hstep : step s = .next (stepEval (sampleReset s)) := step_of_busySeq hr hs rfl
  rw [hstep]
  refine ⟨fun e he => ?_, fun f hf => ?_⟩
  · rw [stepEval_of_error (s := sampleReset s) he]; rfl
  · rw [stepEval_of_ok (s := sampleReset s) hf]; rfl

/-! ### The writes (R172, R174, R176) -/

/-- Settles O27: the write is the step's definition, and `Coherent` keeps the PLL steps to the PLL source. -/
theorem writePllStep : Obligations.WritePllStep :=
  fun _ hr hs => ⟨step_of_busySeq hr hs rfl, fun h => h.pllOnly (.inl hs)⟩

/-- Settles O28: the write is the step's definition, and the staged code is the source's (`Staged.css`). -/
theorem writeCssStep : Obligations.WriteCssStep :=
  fun _ hr hs => ⟨step_of_busySeq hr hs rfl, fun h => (h.staged_of_committing (by simp [hs, Seq.Committing])).css⟩

/-- On the PLL path the staged prescaler code is 0 (spec/41_encoder.md R151). -/
theorem Staged.pres_of_pll {s : State} (h : Staged s) (hsrc : s.bSrc = Config.cssPll) : s.enc.pres = 0 :=
  have ⟨_, hm⟩ := h.pll hsrc
  hm.pres

/-- Settles O29: the write is the step's definition, and the PLL path stages code 0 (`Staged.pres_of_pll`). -/
theorem writePresStep : Obligations.WritePresStep :=
  fun _ hr hs => ⟨step_of_busySeq hr hs rfl,
    fun h => (h.staged_of_committing (by simp [hs, Seq.Committing])).pres_of_pll⟩

/-! ### The waits (R173, R175, R177, R178) -/

/-- A step that is a poll, answer by answer: the action on a 1, the timeout, waiting without a limit, and counting below
it. -/
theorem step_poll_outcomes {s t : State} {site : Seq} {b : Bit} {done : State → State}
    (h : step s = .next (afterPoll site b done t)) :
    (b = 1#1 → step s = .next (done t)) ∧
    (b ≠ 1#1 → t.params.waitLimit = some (t.waitCnt + 1) →
      step s = .next (raiseFault .hardwareTimeout site.code t)) ∧
    (b ≠ 1#1 → t.params.waitLimit = none → step s = .next t) ∧
    (∀ n, b ≠ 1#1 → t.params.waitLimit = some n → n ≠ t.waitCnt + 1 →
      step s = .next { t with waitCnt := t.waitCnt + 1 }) := by
  rw [h]
  refine ⟨fun hb => ?_, fun hb hl => ?_, fun hb hl => ?_, fun n hb hl hn => ?_⟩
  · simp only [afterPoll, if_pos hb]
  · simp only [afterPoll, if_neg hb, if_pos hl]
  · simp only [afterPoll, if_neg hb, hl, reduceCtorEq, if_false, if_true]
  · simp only [afterPoll, if_neg hb, hl, Option.some.injEq, if_neg hn, reduceCtorEq, if_false]

/-- Settles O30: the poll rule at site 4. -/
theorem lockPollStep : Obligations.LockPollStep := by
  rintro s _ hr hs rfl
  have hstep : step s = .next (stepWaitLock (sampleReset s)) := step_of_busySeq hr hs rfl
  obtain ⟨hone, htimeout, hforever, hcount⟩ := step_poll_outcomes hstep
  exact ⟨hone, htimeout, hforever, fun h => h.pllOnly (.inr hs), hcount⟩

/-- Settles O31: the poll rule at site 6. -/
theorem firstReadyPollStep : Obligations.FirstReadyPollStep := by
  rintro s _ hr hs rfl
  have hstep : step s = .next (stepWaitRdy1 (sampleReset s)) := step_of_busySeq hr hs rfl
  exact step_poll_outcomes hstep

/-- Settles O32: the poll rule at site 8, whose action on a 1 latches the record and responds. -/
theorem secondReadyPollStep : Obligations.SecondReadyPollStep := by
  rintro s _ hr hs rfl
  have hstep : step s = .next (stepWaitRdy2 (sampleReset s)) := step_of_busySeq hr hs rfl
  exact step_poll_outcomes hstep

end Sys2Proof.Machine

/-! # Commit sequencer: transitions and responses (spec/42_commit_sequencer.md R180 to R183)

The table of transitions names, for most states, the states that lead there (`transition_sources`); a wait is left for
another state than `FAULT` only by a read of 1 (`afterPoll_left`). The sequencer responds exactly when it stops being busy
(`EndsWithResponse`), and then it has reached `FROZEN` or `FAULT`. -/

namespace Sys2Proof.Machine

/-- Settles O34, by `step_transition`. -/
theorem seqMovesOnlyAlongTheTransitions : Obligations.SeqMovesOnlyAlongTheTransitions :=
  fun _ _ => step_transition

/-! ### No write before its wait is over (R182) -/

/-- The states from which R181 leads to each of these, apart from staying in a wait or in `FROZEN`. -/
theorem transition_sources (q : Seq) :
    (transition q .sWritePres = true → q = .sWaitRdy1) ∧
    (transition q .frozen = true → q ≠ .frozen → q = .sWaitRdy2) ∧
    (transition q .sWriteCss = true → q = .sEval ∨ q = .sWaitLock) ∧
    (transition q .sWaitRdy1 = true → q ≠ .sWaitRdy1 → q = .sWriteCss) ∧
    (transition q .sWaitRdy2 = true → q ≠ .sWaitRdy2 → q = .sWritePres) := by
  cases q <;> decide

theorem eq_sequencerStepAt_of_step {s t : State} {q : Seq} (hr : resetAsserted s = false) (hs : s.seq = q)
    (hq : q.busy = true) (h : step s = .next t) : t = sequencerStepAt q (sampleReset s) :=
  Host.Outcome.next.inj (h.symm.trans (step_of_busySeq hr hs hq))

/-- A wait that goes on to another state than `FAULT` has read a 1, in the one read `r` of its poll. -/
theorem afterPoll_left {site q : Seq} {b : Bit} {done : State → State} {tr : List HwEvent} {s : State}
    (r : Bit → HwRead) (hread : s.trace = tr ++ [.rd (r b)]) (hdone : (done s).trace = s.trace)
    (hq : (afterPoll site b done s).seq = q) (hleft : q ≠ s.seq) (hfault : q ≠ .fault) :
    (afterPoll site b done s).trace = tr ++ [.rd (r 1)] := by
  rcases afterPoll_cases site b done s with ⟨hb, he⟩ | ⟨_, _, he⟩ | ⟨_, _, he⟩ | ⟨_, _, he⟩ <;> rw [he] at hq ⊢
  · rw [hdone, hread, hb]; rfl
  · exact absurd hq.symm hfault
  · exact absurd hq.symm hleft
  · exact absurd hq.symm hleft

/-- On the PLL source S_EVAL goes on to the PLL's own steps (R171). -/
theorem stepEval_seq_of_pll {s : State} (hsrc : s.bSrc = Config.cssPll) : (stepEval s).seq ≠ .sWriteCss := by
  rcases stepEval_cases s with ⟨_, _, he⟩ | ⟨_, _, he⟩ <;> rw [he]
  · nofun
  · simp [hsrc]

/-- Settles O36: the states that lead to each of the five are known (`transition_sources`); the step there is a write, or a
poll that has read a 1 (`afterPoll_left`), or S_EVAL, which leaves the PLL source aside (`stepEval_seq_of_pll`). -/
theorem noWriteBeforeItsWaitIsOver : Obligations.NoWriteBeforeItsWaitIsOver := by
  intro s t hr h
  obtain ⟨toWritePres, toFrozen, toWriteCss, toWaitRdy1, toWaitRdy2⟩ := transition_sources s.seq
  have htrans := step_transition hr h
  refine ⟨fun ht => ?_, fun ht hne => ?_, fun ht hsrc => ?_, fun ht hne => ?_, fun ht hne => ?_⟩ <;> rw [ht] at htrans
  · have hs := toWritePres htrans
    obtain rfl := eq_sequencerStepAt_of_step hr hs rfl h
    exact ⟨hs, afterPoll_left (s := hwReadMckRdy (sampleReset s)) .mckRdy rfl rfl ht (by simp [hs]) nofun⟩
  · have hs := toFrozen htrans hne
    obtain rfl := eq_sequencerStepAt_of_step hr hs rfl h
    exact ⟨hs, afterPoll_left (s := hwReadMckRdy (sampleReset s)) .mckRdy rfl rfl ht (by simp [hs]) nofun⟩
  · rcases toWriteCss htrans with hs | hs
    · obtain rfl := eq_sequencerStepAt_of_step hr hs rfl h
      exact absurd ht (stepEval_seq_of_pll (s := sampleReset s) hsrc)
    · obtain rfl := eq_sequencerStepAt_of_step hr hs rfl h
      exact ⟨hs, afterPoll_left (s := hwReadPllLock (sampleReset s)) .pllLock rfl rfl ht (by simp [hs]) nofun⟩
  · have hs := toWaitRdy1 htrans hne
    obtain rfl := eq_sequencerStepAt_of_step hr hs rfl h
    exact ⟨hs, rfl⟩
  · have hs := toWaitRdy2 htrans hne
    obtain rfl := eq_sequencerStepAt_of_step hr hs rfl h
    exact ⟨hs, rfl⟩

/-! ### A busy block takes no word, and responds once (R180) -/

/-- Every command is an action on a state that takes the word (log 8). -/
theorem exec_eq_whenTaken (i : Instr) : ∃ act, ∀ s, exec i s = .next (whenTaken s act) := by
  cases i <;> exact ⟨_, fun _ => rfl⟩

theorem exec_of_busy {s : State} (hb : s.seq.busy = true) (i : Instr) : exec i s = .next s := by
  obtain ⟨act, h⟩ := exec_eq_whenTaken i
  rw [h, whenTaken, if_pos hb]

/-- The responses that can end a FREEZE: OK, or the status of a fault (spec/60_exceptions.md R255). -/
def FreezeResponse (r : Response) : Prop := r = ⟨.ok, 0⟩ ∨ ∃ f : FaultKind, r = ⟨f.status, 0⟩

/-- From `s` to `t` there is no response while the block stays busy, and one as it stops. -/
def EndsWithResponse (s t : State) : Prop :=
  (t.seq.busy = true ∧ t.responses = s.responses) ∨
  (t.seq.busy = false ∧ ∃ r, t.responses = s.responses ++ [r] ∧ FreezeResponse r)

theorem raiseFault_endsWithResponse (f : FaultKind) (site : BitVec 4) (s : State) :
    EndsWithResponse s (raiseFault f site s) :=
  .inr ⟨rfl, _, rfl, .inr ⟨f, rfl⟩⟩

theorem afterPoll_endsWithResponse {site : Seq} {b : Bit} {done : State → State} {s : State} (hb : s.seq.busy = true)
    (hdone : EndsWithResponse s (done s)) : EndsWithResponse s (afterPoll site b done s) := by
  rcases afterPoll_cases site b done s with ⟨_, he⟩ | ⟨_, _, he⟩ | ⟨_, _, he⟩ | ⟨_, _, he⟩ <;> rw [he]
  · exact hdone
  · exact raiseFault_endsWithResponse _ _ s
  · exact .inl ⟨hb, rfl⟩
  · exact .inl ⟨hb, rfl⟩

theorem stepEval_endsWithResponse (s : State) : EndsWithResponse s (stepEval s) := by
  rcases stepEval_cases s with ⟨_, _, he⟩ | ⟨_, _, he⟩ <;> rw [he]
  · exact raiseFault_endsWithResponse _ _ (hwReadOscClass s)
  · exact .inl ⟨by by_cases hsrc : s.bSrc = Config.cssPll <;> simp [hsrc, Seq.busy], rfl⟩

theorem sequencerStep_endsWithResponse {s : State} (hb : s.seq.busy = true) : EndsWithResponse s (sequencerStep s) := by
  rcases sequencerStep_cases hb with
    ⟨_, he⟩ | ⟨_, he⟩ | ⟨_, he⟩ | ⟨_, he⟩ | ⟨_, he⟩ | ⟨_, he⟩ | ⟨_, he⟩ <;> rw [he]
  · exact stepEval_endsWithResponse s
  · exact .inl ⟨rfl, rfl⟩
  · exact afterPoll_endsWithResponse (s := hwReadPllLock s) hb (.inl ⟨rfl, rfl⟩)
  · exact .inl ⟨rfl, rfl⟩
  · exact afterPoll_endsWithResponse (s := hwReadMckRdy s) hb (.inl ⟨rfl, rfl⟩)
  · exact .inl ⟨rfl, rfl⟩
  · exact afterPoll_endsWithResponse (s := hwReadMckRdy s) hb (.inr ⟨rfl, _, rfl, .inl rfl⟩)

/-- Settles O8: the sequencer takes no word (`step_cmdIn_of_busy`), responds as it stops
(`sequencerStep_endsWithResponse`), and keeps every command from acting (`exec_of_busy`). -/
theorem busyBlockTakesNoCommand : Obligations.BusyBlockTakesNoCommand := by
  intro s t hr hb h
  have hready : s.cmdReady = false := by simp [State.cmdReady, hb]
  refine ⟨hready, step_cmdIn_of_busy hr hb h, ?_⟩
  obtain rfl := eq_sequencerStep_of_step hr hb h
  rcases sequencerStep_endsWithResponse (s := sampleReset s) hb with ⟨ht, hresp⟩ | ⟨ht, hresp⟩
  · exact ⟨fun _ => hresp, fun hf => by simp [ht] at hf, exec_of_busy hb⟩
  · exact ⟨fun hf => by simp [ht] at hf, fun _ => hresp, exec_of_busy hb⟩

/-! ### What a timeout leaves (R183) -/

theorem exec_masterClockFreq_of_fault {s : State} (hs : s.seq = .fault) :
    exec .masterClockFreq s = .next (refuse .refNoRecord s) := by
  simp only [exec, execMasterClockFreq, whenTaken_of_ready (not_busy_of_consumed (.inr hs)), answerFrozen, hs]

/-- Settles O56: a fault with `err` 3 is a timeout of one of the three waits (`FaultRecord`), and the bits of `progress`
say which staged values the hardware holds. -/
theorem timeoutLeavesAPartialCommit : Obligations.TimeoutLeavesAPartialCommit := by
  intro s h hs herr
  refine ⟨?_, exec_masterClockFreq_of_fault hs⟩
  rcases h.faultRecord hs with ⟨hother, _⟩ | ⟨_, hsite, hprog, _⟩ | ⟨_, hsite, hprog⟩ | ⟨_, hsite, hprog⟩
  · simp [herr] at hother
  · obtain ⟨hmul, hdiv, _⟩ := h.pllWritten (by rw [hprog]; rfl)
    exact .inl ⟨hsite, hprog, hmul, hdiv⟩
  · obtain ⟨hcss, _⟩ := h.cssWritten (by rw [hprog, commitProgress]; split <;> rfl)
    exact .inr (.inl ⟨hsite, hprog, hcss⟩)
  · obtain ⟨hcss, _⟩ := h.cssWritten (by rw [hprog, commitProgress]; split <;> rfl)
    obtain ⟨hpres, _⟩ := h.presWritten (by rw [hprog, commitProgress]; split <;> rfl)
    exact .inr (.inr ⟨hsite, hprog, hcss, hpres⟩)

/-! ### What the hardware holds when a FREEZE has reached `FROZEN` (R177) -/

theorem Reachable.coherent {s : State} (h : Reachable s) : Coherent s := by
  obtain ⟨s0, n, hpower, hrun⟩ := h
  exact hrun.invariant (P := Coherent) everyStepKeepsCoherence (startingStatesAreCoherent.2 s0 hpower)

/-- In `FROZEN` the clock hardware holds the staged values of every write of its path. -/
theorem Coherent.frozen_hw {s : State} (h : Coherent s) (hs : s.seq = .frozen) :
    s.hw.css = s.enc.css ∧ s.hw.pres = s.enc.pres ∧
    (s.bSrc = Config.cssPll → s.hw.pllMul = s.enc.mul ∧ s.hw.pllDiv = 2) := by
  have hprog : s.progress = commitProgress s.bSrc .frozen := hs ▸ h.progress (by simp [hs])
  obtain ⟨hcss, _⟩ := h.cssWritten (by rw [hprog, commitProgress]; split <;> rfl)
  obtain ⟨hpres, _⟩ := h.presWritten (by rw [hprog, commitProgress]; split <;> rfl)
  refine ⟨hcss, hpres, fun hsrc => ?_⟩
  obtain ⟨hmul, hdiv, _⟩ := h.pllWritten (by rw [hprog, commitProgress, if_pos hsrc]; rfl)
  exact ⟨hmul, hdiv⟩

/-- The laws of the record on the slow and main paths, read at the hardware's prescaler code. -/
theorem Coherent.frozen_mck_of_divisor {s : State} (h : Coherent s) (hs : s.seq = .frozen) {source : Nat}
    (hpath : s.record.src = 0 ∧ source = 32768 ∨ s.record.src = 1 ∧ source = s.record.main.toNat) :
    s.record.mck.toNat = source / presDecode s.hw.pres := by
  obtain ⟨_, hpres, _⟩ := h.frozen_hw hs
  obtain ⟨_, _, _, hlast⟩ := h.frozen hs
  obtain ⟨hmck, _, ⟨p, hp, hdec⟩, _⟩ := frozenRecordOnDivisorPath s source h hs hpath
  obtain rfl : s.enc.pres = p := Option.some.inj (hlast.symm.trans hp)
  rw [hpres, hdec, hmck]

/-- The law of the record on the PLL path, read at the hardware's multiplier. -/
theorem Coherent.frozen_mck_of_pll {s : State} (h : Coherent s) (hs : s.seq = .frozen) (hpath : s.record.src = 2) :
    s.hw.pres = 0 ∧ s.hw.pllDiv = 2 ∧ s.record.mck.toNat = s.record.main.toNat * s.hw.pllMul.toNat := by
  obtain ⟨hrec, hstaged, _⟩ := h.frozen hs
  have hsrc : s.bSrc = Config.cssPll := by rw [hrec] at hpath; exact hpath
  obtain ⟨_, hpres, hpll⟩ := h.frozen_hw hs
  obtain ⟨hmul, hdiv⟩ := hpll hsrc
  obtain ⟨hmck, _, _, _, ⟨m, hm, happlied⟩, _⟩ := frozenRecordOnPllPath s h hs hpath
  obtain ⟨rfl, _⟩ := Prod.mk.inj (Option.some.inj ((h.frozen_pllCtrl hs hsrc).symm.trans hm))
  exact ⟨hpres.trans (hstaged.pres_of_pll hsrc), hdiv, by rw [hmck, hmul, happlied]⟩

/-- Settles O60: a reachable state is coherent, and in `FROZEN` the hardware holds the values that the laws of the record
(O43, O44) name. -/
theorem reachableRecordMatchesTheHardware : Obligations.ReachableRecordMatchesTheHardware := by
  intro s hreach hs
  have h := hreach.coherent
  obtain ⟨hrec, hstaged, _⟩ := h.frozen hs
  obtain ⟨hcss, _⟩ := h.frozen_hw hs
  have hsrc : s.record.src = s.bSrc := congrArg RecRegs.src hrec
  exact ⟨hcss.trans (hstaged.css.trans hsrc.symm), fun hslow => h.frozen_mck_of_divisor hs (.inl ⟨hslow, rfl⟩),
    fun hmain => h.frozen_mck_of_divisor hs (.inr ⟨hmain, rfl⟩), h.frozen_mck_of_pll hs, hsrc ▸ h.source⟩

end Sys2Proof.Machine

/-! # Commit sequencer: a FREEZE with a `WAIT_LIMIT` ends (spec/42_commit_sequencer.md R178, spec/60_exceptions.md R264)

`stepsLeft` bounds the steps that a FREEZE in progress can still take: three waits of at most `n` polls, the three writes and
S_EVAL. Every step of the sequencer lowers it, by the counter of R26 where the step is a poll that goes on waiting. -/

namespace Sys2Proof.Machine

/-- The most steps that a FREEZE takes from `s` on, with `WAIT_LIMIT` = `n`. -/
def stepsLeft (n : Nat) (s : State) : Nat :=
  match s.seq with
  | .sEval => 3 * n + 4
  | .sWritePll => 3 * n + 3
  | .sWaitLock => 2 * n + 2 + (n - s.waitCnt)
  | .sWriteCss => 2 * n + 2
  | .sWaitRdy1 => n + 1 + (n - s.waitCnt)
  | .sWritePres => n + 1
  | .sWaitRdy2 => n - s.waitCnt
  | .raw | .building | .frozen | .fault => 0

theorem stepsLeft_le (n : Nat) (s : State) : stepsLeft n s ≤ 3 * n + 4 := by
  unfold stepsLeft
  split <;> omega

/-- A poll below the limit leaves one poll less of its wait. -/
theorem stepsLeft_count {n : Nat} {s : State} (hs : s.seq.Waits) (hcnt : s.waitCnt < n) :
    stepsLeft n { s with waitCnt := s.waitCnt + 1 } < stepsLeft n s := by
  rcases hs with hs | hs | hs <;> simp only [stepsLeft, hs] <;> omega

/-- A poll lowers the bound if the action on a 1 does. -/
theorem afterPoll_stepsLeft {n : Nat} {site : Seq} {b : Bit} {done : State → State} {s : State} (hs : s.seq.Waits)
    (hl : s.params.waitLimit = some n) (hcnt : s.waitCnt < n) (hdone : stepsLeft n (done s) < stepsLeft n s) :
    stepsLeft n (afterPoll site b done s) < stepsLeft n s := by
  rcases afterPoll_cases site b done s with ⟨_, he⟩ | ⟨_, _, he⟩ | ⟨_, hnone, _⟩ | ⟨_, _, he⟩
  · rwa [he]
  · rw [he]
    exact (Nat.zero_le _).trans_lt (stepsLeft_count hs hcnt)
  · simp [hl] at hnone
  · rw [he]
    exact stepsLeft_count hs hcnt

theorem stepEval_stepsLeft {n : Nat} {s : State} (hs : s.seq = .sEval) : stepsLeft n (stepEval s) < stepsLeft n s := by
  have hnow : stepsLeft n s = 3 * n + 4 := by simp only [stepsLeft, hs]
  rw [hnow]
  rcases stepEval_seq_cases s with h | h | h <;> simp only [stepsLeft, h] <;> omega

theorem sequencerStep_stepsLeft {n : Nat} {s : State} (hb : s.seq.busy = true) (hl : s.params.waitLimit = some n)
    (hcnt : s.waitCnt < n) : stepsLeft n (sequencerStep s) < stepsLeft n s := by
  rcases sequencerStep_cases hb with
    ⟨hs, he⟩ | ⟨hs, he⟩ | ⟨hs, he⟩ | ⟨hs, he⟩ | ⟨hs, he⟩ | ⟨hs, he⟩ | ⟨hs, he⟩ <;> rw [he]
  · exact stepEval_stepsLeft hs
  · simp only [stepsLeft, stepWritePll, hs]
    omega
  · refine afterPoll_stepsLeft (s := hwReadPllLock s) (.inl hs) hl hcnt ?_
    simp only [stepsLeft, hwReadPllLock_seq, hwReadPllLock_waitCnt, hs]
    omega
  · simp only [stepsLeft, stepWriteCss, hs]
    omega
  · refine afterPoll_stepsLeft (s := hwReadMckRdy s) (.inr (.inl hs)) hl hcnt ?_
    simp only [stepsLeft, hwReadMckRdy_seq, hwReadMckRdy_waitCnt, hs]
    omega
  · simp only [stepsLeft, stepWritePres, hs]
    omega
  · refine afterPoll_stepsLeft (s := hwReadMckRdy s) (.inr (.inr hs)) hl hcnt ?_
    simp only [stepsLeft, respond_seq, hwReadMckRdy_seq, hwReadMckRdy_waitCnt, hs]
    omega

theorem Coherent.stepsLeft_step {n : Nat} {s : State} (h : Coherent s) (hb : s.seq.busy = true)
    (hl : s.params.waitLimit = some n) : stepsLeft n (sequencerStep (sampleReset s)) < stepsLeft n s :=
  sequencerStep_stepsLeft (s := sampleReset s) hb hl (h.waitBound n hl)

theorem Seq.PastBuilding.of_busy {q : Seq} (hq : q.busy = true) : q.PastBuilding := by
  constructor <;> rintro rfl <;> cases hq

/-- The sequencer stops being busy in `FROZEN` or in `FAULT` only (R181). -/
theorem frozen_or_fault_of_transition {q r : Seq} (hq : q.busy = true) (hr : r.busy = false)
    (h : transition q r = true) : r = .frozen ∨ r = .fault := by
  obtain ⟨hraw, hbuilding⟩ := (Seq.PastBuilding.of_busy hq).of_transition h
  cases r with
  | raw => exact absurd rfl hraw
  | building => exact absurd rfl hbuilding
  | frozen => exact .inl rfl
  | fault => exact .inr rfl
  | _ => cases hr

/-- A FREEZE in progress ends within its bound, and its last step is the one that responds. -/
theorem freeze_ends_within {n : Nat} (k : Nat) {s : State} (h : Coherent s) (hr : NoReset s) (hb : s.seq.busy = true)
    (hl : s.params.waitLimit = some n) (hk : stepsLeft n s ≤ k) :
    ∃ m t r, m ≤ k ∧ RunsTo m s t ∧ (t.seq = .frozen ∨ t.seq = .fault) ∧ t.responses = s.responses ++ [r] := by
  induction k generalizing s with
  | zero =>
    have hless := h.stepsLeft_step hb hl
    omega
  | succ k ih =>
    have hless := h.stepsLeft_step hb hl
    have hstep := step_of_sequencer hr.head hb
    rcases sequencerStep_endsWithResponse (s := sampleReset s) hb with ⟨hbusy, hsame⟩ | ⟨hready, r, hresp, _⟩
    · have hcoherent := everyStepKeepsCoherence _ _ h hstep
      have hlimit := (step_sameInputs hstep).params ▸ hl
      obtain ⟨m, t, r, hm, hrun, hend, hresp⟩ := ih hcoherent (hr.of_step hstep) hbusy hlimit (by omega)
      exact ⟨m + 1, t, r, by omega, (runsTo_succ hstep).mpr hrun, hend, by rw [hresp, hsame, sampleReset_responses]⟩
    · have hend := frozen_or_fault_of_transition hb hready (step_transition hr.head hstep)
      exact ⟨1, _, r, by omega, (runsTo_succ hstep).mpr (runsTo_zero.mpr rfl), hend, hresp⟩

/-- Settles O37, by `freeze_ends_within` at the largest bound (`stepsLeft_le`). -/
theorem boundedFreezeEnds : Obligations.BoundedFreezeEnds :=
  fun s n h hr hb hl => freeze_ends_within (3 * n + 4) h hr hb hl (stepsLeft_le n s)

end Sys2Proof.Machine

/-! # Commit sequencer: the accesses of a FREEZE (spec/42_commit_sequencer.md R179)

`AccessesAt` says which accesses have been made when the sequencer has reached a state: one row of R179, cut off at that
state. Each access of the sequencer takes the row of its state to the row of the next one, and `FreezeInProgress`, which also
carries the source and the staged values, is kept by every step of the sequencer. A run between two busy states has no other
steps (`RunsTo.busy_invariant`). -/

namespace Sys2Proof.Machine

/-! ### The rows of R179, cut off at each state -/

/-- The accesses before the write of `CSS`: the class, and on the PLL source the PLL write and its polls. -/
def Opening (src : BitVec 2) (mul : BitVec 12) (o : List HwEvent) : Prop :=
  (src ≠ Config.cssPll ∧ ∃ cls, o = [.rd (.oscClass cls)]) ∨
  (src = Config.cssPll ∧ ∃ cls k, o = .rd (.oscClass cls) :: .wr (.pllCtrl mul 2) :: lockPolls k)

/-- The accesses that a FREEZE on source `src` with staged values `enc` has made when it has reached a state. A fault ends
the row wherever it is. -/
def AccessesAt (src : BitVec 2) (enc : EncRegs) : Seq → List HwEvent → Prop
  | .sEval, l => l = []
  | .sWritePll, l => src = Config.cssPll ∧ ∃ cls, l = [.rd (.oscClass cls)]
  | .sWaitLock, l => src = Config.cssPll ∧ ∃ cls k,
      l = .rd (.oscClass cls) :: .wr (.pllCtrl enc.mul 2) :: List.replicate k (.rd (.pllLock 0))
  | .sWriteCss, l => Opening src enc.mul l
  | .sWaitRdy1, l => ∃ o k, Opening src enc.mul o ∧
      l = o ++ .wr (.css enc.css) :: List.replicate k (.rd (.mckRdy 0))
  | .sWritePres, l => ∃ o k, Opening src enc.mul o ∧ l = o ++ .wr (.css enc.css) :: readyPolls k
  | .sWaitRdy2, l => ∃ o k2 k3, Opening src enc.mul o ∧
      l = o ++ .wr (.css enc.css) :: readyPolls k2 ++ .wr (.pres enc.pres) :: List.replicate k3 (.rd (.mckRdy 0))
  | .frozen, l => ∃ o k2 k3, Opening src enc.mul o ∧ l = o ++ commitTrace enc.css enc.pres k2 k3
  | .fault, _ => True
  | .raw, _ | .building, _ => False

section Rows

variable {src : BitVec 2} {enc enc' : EncRegs} {l : List HwEvent} {b : Bit}

theorem AccessesAt.eval (h : AccessesAt src enc .sEval l) (cls : OscClass) :
    AccessesAt src enc' (if src = Config.cssPll then .sWritePll else .sWriteCss) (l ++ [.rd (.oscClass cls)]) := by
  obtain rfl : l = [] := h
  by_cases hsrc : src = Config.cssPll
  · rw [if_pos hsrc]
    exact ⟨hsrc, cls, rfl⟩
  · rw [if_neg hsrc]
    exact .inl ⟨hsrc, cls, rfl⟩

theorem AccessesAt.write_pllCtrl (h : AccessesAt src enc .sWritePll l) :
    AccessesAt src enc .sWaitLock (l ++ [.wr (.pllCtrl enc.mul 2)]) := by
  obtain ⟨hsrc, cls, rfl⟩ := h
  exact ⟨hsrc, cls, 0, rfl⟩

theorem AccessesAt.lock_zero (h : AccessesAt src enc .sWaitLock l) (hb : b = 0) :
    AccessesAt src enc .sWaitLock (l ++ [.rd (.pllLock b)]) := by
  obtain ⟨hsrc, cls, k, rfl⟩ := h
  exact ⟨hsrc, cls, k + 1, by simp [hb, List.replicate_succ']⟩

theorem AccessesAt.lock_one (h : AccessesAt src enc .sWaitLock l) (hb : b = 1) :
    AccessesAt src enc .sWriteCss (l ++ [.rd (.pllLock b)]) := by
  obtain ⟨hsrc, cls, k, rfl⟩ := h
  exact .inr ⟨hsrc, cls, k, by simp [hb, lockPolls]⟩

theorem AccessesAt.write_css (h : AccessesAt src enc .sWriteCss l) :
    AccessesAt src enc .sWaitRdy1 (l ++ [.wr (.css enc.css)]) :=
  ⟨l, 0, h, rfl⟩

theorem AccessesAt.ready1_zero (h : AccessesAt src enc .sWaitRdy1 l) (hb : b = 0) :
    AccessesAt src enc .sWaitRdy1 (l ++ [.rd (.mckRdy b)]) := by
  obtain ⟨o, k, ho, rfl⟩ := h
  exact ⟨o, k + 1, ho, by simp [hb, List.replicate_succ']⟩

theorem AccessesAt.ready1_one (h : AccessesAt src enc .sWaitRdy1 l) (hb : b = 1) :
    AccessesAt src enc .sWritePres (l ++ [.rd (.mckRdy b)]) := by
  obtain ⟨o, k, ho, rfl⟩ := h
  exact ⟨o, k, ho, by simp [hb, readyPolls]⟩

theorem AccessesAt.write_pres (h : AccessesAt src enc .sWritePres l) :
    AccessesAt src enc .sWaitRdy2 (l ++ [.wr (.pres enc.pres)]) := by
  obtain ⟨o, k, ho, rfl⟩ := h
  exact ⟨o, k, 0, ho, by simp⟩

theorem AccessesAt.ready2_zero (h : AccessesAt src enc .sWaitRdy2 l) (hb : b = 0) :
    AccessesAt src enc .sWaitRdy2 (l ++ [.rd (.mckRdy b)]) := by
  obtain ⟨o, k2, k3, ho, rfl⟩ := h
  exact ⟨o, k2, k3 + 1, ho, by simp [hb, List.replicate_succ']⟩

theorem AccessesAt.ready2_one (h : AccessesAt src enc .sWaitRdy2 l) (hb : b = 1) :
    AccessesAt src enc .frozen (l ++ [.rd (.mckRdy b)]) := by
  obtain ⟨o, k2, k3, ho, rfl⟩ := h
  exact ⟨o, k2, k3, ho, by simp [hb, commitTrace, readyPolls]⟩

end Rows

/-! ### A FREEZE in progress -/

/-- `v` is on the way of the FREEZE that was admitted in `s`. -/
structure FreezeInProgress (s v : State) : Prop where
  source   : v.bSrc = s.bSrc
  staged   : v.seq.Committing → Staged v
  accesses : ∃ l, v.trace = s.trace ++ l ∧ AccessesAt v.bSrc v.enc v.seq l

section InProgress

variable {s v : State}

theorem FreezeInProgress.sample (h : FreezeInProgress s v) : FreezeInProgress s (sampleReset v) :=
  ⟨h.source, h.staged, h.accesses⟩

/-- One access takes the row of `v` to that of `t`. -/
theorem FreezeInProgress.access {t : State} {e : HwEvent} {q r : Seq} (h : FreezeInProgress s v) (hv : v.seq = q)
    (ht : t.seq = r) (hsrc : t.bSrc = v.bSrc) (htrace : t.trace = v.trace ++ [e]) (hstaged : t.seq.Committing → Staged t)
    (hrow : ∀ l, AccessesAt v.bSrc v.enc q l → AccessesAt v.bSrc t.enc r (l ++ [e])) : FreezeInProgress s t := by
  obtain ⟨l, hl, hrowv⟩ := h.accesses
  rw [hv] at hrowv
  refine ⟨hsrc.trans h.source, hstaged, l ++ [e], ?_, ?_⟩
  · rw [htrace, hl, List.append_assoc]
  · rw [hsrc, ht]
    exact hrow l hrowv

/-- A fault ends the row (spec/60_exceptions.md R255). -/
theorem FreezeInProgress.fault {t : State} {e : HwEvent} (h : FreezeInProgress s v) (hsrc : t.bSrc = v.bSrc)
    (htrace : t.trace = v.trace ++ [e]) (f : FaultKind) (site : BitVec 4) : FreezeInProgress s (raiseFault f site t) :=
  h.access rfl rfl hsrc htrace (fun ⟨_, _, _, hfault⟩ => absurd rfl hfault) fun _ _ => trivial

/-- A poll, whose read `e` takes `v` to `u`: what is left to say is the row after a 1 and after a 0. -/
theorem FreezeInProgress.poll {u : State} {e : HwEvent} {site : Seq} {b : Bit} {done : State → State}
    (h : FreezeInProgress s v) (hsrc : u.bSrc = v.bSrc) (htrace : u.trace = v.trace ++ [e])
    (hone : b = 1#1 → FreezeInProgress s (done u)) (hzero : b = 0#1 → FreezeInProgress s u) :
    FreezeInProgress s (afterPoll site b done u) := by
  rcases afterPoll_cases site b done u with ⟨hb, he⟩ | ⟨_, _, he⟩ | ⟨hb, _, he⟩ | ⟨hb, _, he⟩ <;> rw [he]
  · exact hone hb
  · exact h.fault hsrc htrace _ _
  · exact hzero (bit_eq_zero_of_ne_one hb)
  · have hwaiting := hzero (bit_eq_zero_of_ne_one hb)
    exact ⟨hwaiting.source, hwaiting.staged, hwaiting.accesses⟩

theorem stepEval_inProgress (h : FreezeInProgress s v) (hv : v.seq = .sEval) : FreezeInProgress s (stepEval v) := by
  rcases stepEval_cases v with ⟨_, _, he⟩ | ⟨r, hr, he⟩ <;> rw [he]
  · exact h.fault (t := hwReadOscClass v) rfl rfl _ _
  · exact h.access hv rfl rfl rfl (fun _ => ⟨_, r, hr, stage_stage v.enc v.bSrc r⟩) fun _ hl => hl.eval _

theorem stepWaitLock_inProgress (h : FreezeInProgress s v) (hv : v.seq = .sWaitLock) :
    FreezeInProgress s (stepWaitLock v) := by
  have hstaged : Staged v := h.staged (by simp [hv, Seq.Committing])
  exact h.poll (u := hwReadPllLock v) rfl rfl
    (fun hone => h.access hv rfl rfl rfl (fun _ => hstaged) fun _ hl => hl.lock_one hone)
    (fun hzero => h.access hv hv rfl rfl (fun _ => hstaged) fun _ hl => hl.lock_zero hzero)

theorem stepWaitRdy1_inProgress (h : FreezeInProgress s v) (hv : v.seq = .sWaitRdy1) :
    FreezeInProgress s (stepWaitRdy1 v) := by
  have hstaged : Staged v := h.staged (by simp [hv, Seq.Committing])
  exact h.poll (u := hwReadMckRdy v) rfl rfl
    (fun hone => h.access hv rfl rfl rfl (fun _ => hstaged) fun _ hl => hl.ready1_one hone)
    (fun hzero => h.access hv hv rfl rfl (fun _ => hstaged) fun _ hl => hl.ready1_zero hzero)

theorem stepWaitRdy2_inProgress (h : FreezeInProgress s v) (hv : v.seq = .sWaitRdy2) :
    FreezeInProgress s (stepWaitRdy2 v) := by
  have hstaged : Staged v := h.staged (by simp [hv, Seq.Committing])
  exact h.poll (u := hwReadMckRdy v) rfl rfl
    (fun hone => h.access hv rfl rfl rfl (fun _ => hstaged) fun _ hl => hl.ready2_one hone)
    (fun hzero => h.access hv hv rfl rfl (fun _ => hstaged) fun _ hl => hl.ready2_zero hzero)

theorem sequencerStep_inProgress (h : FreezeInProgress s v) (hb : v.seq.busy = true) :
    FreezeInProgress s (sequencerStep v) := by
  rcases sequencerStep_cases hb with
    ⟨hv, he⟩ | ⟨hv, he⟩ | ⟨hv, he⟩ | ⟨hv, he⟩ | ⟨hv, he⟩ | ⟨hv, he⟩ | ⟨hv, he⟩ <;> rw [he]
  · exact stepEval_inProgress h hv
  · exact h.access hv rfl rfl rfl (fun _ => h.staged (by simp [hv, Seq.Committing])) fun _ hl => hl.write_pllCtrl
  · exact stepWaitLock_inProgress h hv
  · exact h.access hv rfl rfl rfl (fun _ => h.staged (by simp [hv, Seq.Committing])) fun _ hl => hl.write_css
  · exact stepWaitRdy1_inProgress h hv
  · exact h.access hv rfl rfl rfl (fun _ => h.staged (by simp [hv, Seq.Committing])) fun _ hl => hl.write_pres
  · exact stepWaitRdy2_inProgress h hv

/-- The whole row, in `FROZEN`: the staged source-select code is the source's. -/
theorem FreezeInProgress.frozen (h : FreezeInProgress s v) (hv : v.seq = .frozen) :
    ∃ o k2 k3, Opening s.bSrc v.enc.mul o ∧ v.trace = s.trace ++ (o ++ commitTrace s.bSrc v.enc.pres k2 k3) := by
  have hcss : v.enc.css = v.bSrc := (h.staged (by simp [hv, Seq.Committing])).css
  obtain ⟨l, hl, hrow⟩ := h.accesses
  rw [hv] at hrow
  obtain ⟨o, k2, k3, ho, rfl⟩ := hrow
  rw [hcss, h.source] at hl
  exact ⟨o, k2, k3, h.source ▸ ho, hl⟩

end InProgress

/-! ### From the FREEZE word to `FROZEN` -/

/-- Past `BUILDING` only a busy state leads to a busy state (R181). -/
theorem Seq.PastBuilding.busy_of_transition {q r : Seq} (hq : q.PastBuilding) (h : transition q r = true)
    (hr : r.busy = true) : q.busy = true := by
  obtain ⟨hraw, hbuilding⟩ := hq
  cases q with
  | raw => exact absurd rfl hraw
  | building => exact absurd rfl hbuilding
  | frozen | fault =>
    obtain rfl := eq_of_beq h
    cases hr
  | _ => rfl

/-- What every step of the sequencer keeps holds at the end of a run without reset between two busy states. -/
theorem RunsTo.busy_invariant {P : State → Prop}
    (hstep : ∀ v, v.seq.busy = true → P v → P (sequencerStep (sampleReset v))) {n : Nat} {s u : State}
    (h : RunsTo n s u) (hr : NoReset s) (hs : s.seq.PastBuilding) (hP : P s) (hu : u.seq.busy = true) : P u := by
  refine (h.invariant (P := fun v => (NoReset v ∧ v.seq.PastBuilding) ∧ (v.seq.busy = true → P v)) ?_
    ⟨⟨hr, hs⟩, fun _ => hP⟩).2 hu
  rintro v w ⟨⟨hr, hpast⟩, hv⟩ hvw
  have htrans := step_transition hr.head hvw
  refine ⟨⟨hr.of_step hvw, hpast.of_transition htrans⟩, fun hw => ?_⟩
  have hb := hpast.busy_of_transition htrans hw
  obtain rfl := eq_sequencerStep_of_step hr.head hb hvw
  exact hstep v hb (hv hb)

/-- In `BUILDING` the FREEZE word is taken and S_EVAL entered, with no access yet (R170). -/
theorem step_of_freezeWord {s : State} {w : CmdWord} {rest : List CmdWord} (hs : s.seq = .building)
    (hr : resetAsserted s = false) (hc : s.cmdIn = w :: rest) (hd : decode s.params.gates w = .ok .freeze) :
    step s = .next { takeWord (sampleReset s) with seq := .sEval } := by
  rw [step_of_presentedWord hr (by rw [hs]; rfl) (congrArg List.head? hc) hd]
  exact (freezeIsAdmittedOnlyWhileBuilding _).1 hs

/-- A FREEZE that ends has been in progress since its word was taken. -/
theorem freezeInProgress_of_run {n : Nat} {s u t : State} {w : CmdWord} {rest : List CmdWord} (hs : s.seq = .building)
    (hr : NoReset s) (hc : s.cmdIn = w :: rest) (hd : decode s.params.gates w = .ok .freeze) (hrun : RunsTo n s u)
    (hu : u.seq.busy = true) (hstep : step u = .next t) : FreezeInProgress s t := by
  have hadmit := step_of_freezeWord hs hr.head hc hd
  have hsu : NoReset u ∧ FreezeInProgress s u := by
    cases n with
    | zero =>
      rw [runsTo_zero.mp hrun, hs] at hu
      cases hu
    | succ n =>
      have hrest := (runsTo_succ hadmit).mp hrun
      have hr1 := hr.of_step hadmit
      refine ⟨hrest.invariant (P := fun v => NoReset v) (fun _ _ h hv => h.of_step hv) hr1, ?_⟩
      refine hrest.busy_invariant (fun v hb h => sequencerStep_inProgress h.sample hb) hr1 ⟨nofun, nofun⟩ ?_ hu
      exact ⟨rfl, fun ⟨_, _, heval, _⟩ => absurd rfl heval, [], (List.append_nil _).symm, rfl⟩
  obtain ⟨hru, hprogress⟩ := hsu
  obtain rfl := eq_sequencerStep_of_step hru.head hu hstep
  exact sequencerStep_inProgress hprogress.sample hu

/-- Settles O33: the FREEZE is in progress up to `FROZEN` (`freezeInProgress_of_run`), where its row is complete
(`FreezeInProgress.frozen`). -/
theorem freezeAccessSequence : Obligations.FreezeAccessSequence := by
  intro n s u t w rest hs hr hc hd hrun hu hstep ht
  have hprogress := freezeInProgress_of_run hs hr hc hd hrun hu hstep
  have hstaged : Staged t := hprogress.staged (by simp [ht, Seq.Committing])
  obtain ⟨o, k2, k3, ho, htrace⟩ := hprogress.frozen ht
  have hdivisor : s.bSrc ≠ Config.cssPll → ∃ c k2 k3, t.trace = s.trace ++ divisorTrace c s.bSrc t.enc.pres k2 k3 := by
    intro hsrc
    obtain ⟨_, cls, rfl⟩ := ho.resolve_right fun ⟨hpll, _⟩ => hsrc hpll
    exact ⟨cls, k2, k3, htrace⟩
  refine ⟨fun hslow => ?_, fun hmain => ?_, fun hpll => ?_⟩
  · simpa only [hslow] using hdivisor (by rw [hslow]; decide)
  · simpa only [hmain] using hdivisor (by rw [hmain]; decide)
  · obtain ⟨_, cls, k, rfl⟩ := ho.resolve_left fun ⟨hne, _⟩ => hne hpll
    rw [hstaged.pres_of_pll (hprogress.source.trans hpll), hpll] at htrace
    exact ⟨cls, k, k2, k3, htrace⟩

end Sys2Proof.Machine

/-! # Record: the six accessors (spec/43_record.md R210 to R217)

An accessor is the admission of R216 applied to one field of the record (`exec_of_accessor`), and `seq` alone decides that
admission: one equation for each of its outcomes serves all six. A block that is not busy keeps its record until reset. -/

namespace Sys2Proof.Machine

/-! ### Admission (R216) -/

theorem accessor_of_raw {s : State} (hs : s.seq = .raw) (value : RecRegs → BitVec 32) :
    whenTaken s (answerFrozen value) = refuse .refNotConstrained s := by
  rw [whenTaken_of_ready (by rw [hs]; rfl)]
  simpa [hs] using answerFrozen_cases value s

/-- A builder has no record yet, and a fault has left none. -/
theorem accessor_of_noRecord {s : State} (hs : s.seq = .building ∨ s.seq = .fault) (value : RecRegs → BitVec 32) :
    whenTaken s (answerFrozen value) = refuse .refNoRecord s := by
  rw [whenTaken_of_ready (by rcases hs with hs | hs <;> rw [hs] <;> rfl)]
  rcases hs with hs | hs <;> simpa [hs] using answerFrozen_cases value s

theorem accessor_of_frozen {s : State} (hs : s.seq = .frozen) (value : RecRegs → BitVec 32) :
    whenTaken s (answerFrozen value) = respond .ok (value s.record) s := by
  rw [whenTaken_of_ready (not_busy_of_consumed (.inl hs))]
  simpa [hs] using answerFrozen_cases value s

/-! ### The answers (R210 to R215) -/

/-- Each accessor answers one field, the same in every state. -/
theorem exec_of_accessor {i : Instr}
    (hi : i ∈ [Instr.clockSource, .slowClockFreq, .mainOscFreq, .pllRatio, .masterClockFreq, .appliedPrescaler]) :
    ∃ value, ∀ s, exec i s = .next (whenTaken s (answerFrozen value)) := by
  simp only [List.mem_cons, List.not_mem_nil, or_false] at hi
  rcases hi with rfl | rfl | rfl | rfl | rfl | rfl <;> exact ⟨_, fun _ => rfl⟩

/-- Settles O39: in `FROZEN` the admission responds with the accessor's field (`accessor_of_frozen`). -/
theorem accessorsAnswerTheRecord : Obligations.AccessorsAnswerTheRecord := by
  intro s hs
  have answers (value : RecRegs → BitVec 32) :
      (.next (whenTaken s (answerFrozen value)) : Host.Outcome State Fault Refusal) =
        .next { s with responses := s.responses ++ [⟨.ok, value s.record⟩] } :=
    congrArg Host.Outcome.next (accessor_of_frozen hs value)
  exact ⟨answers fun r => r.src.zeroExtend 32, answers RecRegs.slow, answers RecRegs.main, answers RecRegs.ratio,
    answers RecRegs.mck, answers RecRegs.applied⟩

/-- Settles O40: the two refusals of the admission (`accessor_of_raw`, `accessor_of_noRecord`) do not look at the field. -/
theorem accessorsAreRefusedWithoutARecord : Obligations.AccessorsAreRefusedWithoutARecord := by
  intro s i hi
  obtain ⟨value, hexec⟩ := exec_of_accessor hi
  rw [hexec]
  exact ⟨fun hs => congrArg Host.Outcome.next (accessor_of_raw hs value),
    fun hs => congrArg Host.Outcome.next (accessor_of_noRecord hs value)⟩

/-- Settles O42: the record of a coherent state in `FROZEN` is the latched one, whose slow frequency is the constant of
spec/42_commit_sequencer.md R177. -/
theorem slowClockFreqIsConstant : Obligations.SlowClockFreqIsConstant := by
  intro s h hs
  have hslow : s.record.slow = 0x00008000 := congrArg RecRegs.slow (h.latched hs)
  obtain ⟨_, hanswer, _⟩ := accessorsAnswerTheRecord s hs
  rw [hanswer, hslow]

/-! ### The record until reset (R217) -/

theorem exec_record {i : Instr} {s t : State} (h : exec i s = .next t) : t.record = s.record := by
  obtain ⟨hframe, _⟩ := exec_frame h
  rw [hframe]

/-- Without a reset only the sequencer writes the record: a step of a block that is not busy keeps it. -/
theorem step_record_of_ready {s t : State} (hr : resetAsserted s = false) (hb : s.seq.busy = false)
    (h : step s = .next t) : t.record = s.record := by
  rcases step_cases h with
    ⟨hreset, _⟩ | ⟨_, hbusy, _⟩ | ⟨_, _, _, rfl⟩ | ⟨_, _, _, _, _, _, _, rfl⟩ | ⟨_, _, _, _, _, _, _, he⟩
  case inl => simp [hr] at hreset
  case inr.inl => simp [hb] at hbusy
  case inr.inr.inl => rfl
  case inr.inr.inr.inl => rfl
  case inr.inr.inr.inr => exact exec_record (s := takeWord (sampleReset s)) he

/-- `FROZEN` is left by reset only (spec/42_commit_sequencer.md R181). -/
theorem step_seq_of_frozen {s t : State} (hr : resetAsserted s = false) (hs : s.seq = .frozen)
    (h : step s = .next t) : t.seq = .frozen := by
  have htrans := step_transition hr h
  rw [hs] at htrans
  exact eq_of_beq htrans

/-- A run without reset from `FROZEN` stays there, with the same record. -/
theorem RunsTo.frozen {n : Nat} {s t : State} (h : RunsTo n s t) (hr : NoReset s) (hs : s.seq = .frozen) :
    t.seq = .frozen ∧ t.record = s.record := by
  refine (h.invariant (P := fun u => NoReset u ∧ u.seq = .frozen ∧ u.record = s.record) ?_ ⟨hr, hs, rfl⟩).2
  rintro u v ⟨hr, hu, hrec⟩ huv
  exact ⟨hr.of_step huv, step_seq_of_frozen hr.head hu huv,
    (step_record_of_ready hr.head (not_busy_of_consumed (.inl hu)) huv).trans hrec⟩

/-- Settles O41: the record is the same at both ends of the run (`RunsTo.frozen`), and in `FROZEN` the answer is a function
of the record (`accessor_of_frozen`). -/
theorem recordIsImmutable : Obligations.RecordIsImmutable := by
  intro n s t hr hs hrun
  obtain ⟨ht, hrec⟩ := hrun.frozen hr hs
  refine ⟨ht, hrec, fun i hi => ?_⟩
  obtain ⟨value, hexec⟩ := exec_of_accessor hi
  have hfirst : exec i s = .next (respond .ok (value s.record) s) := by rw [hexec, accessor_of_frozen hs]
  have hagain : exec i t = .next (respond .ok (value s.record) t) := by rw [hexec, accessor_of_frozen ht, hrec]
  exact ⟨value s.record, hfirst, hagain⟩

end Sys2Proof.Machine

/-! # Gates: the peripheral clock gate commands (spec/44_clock_gate.md R230 to R235)

A gate command is the admission of R234 applied to one access (`exec_of_gateCommand`), and an admitted one (`GateAdmitted`)
acts. Gates and clock share no register: a gate command touches gate status words only (`TouchesOnlyGates`), and every other
operation keeps them (`SameGates`). What a status read answers after a write is a fact about bits: the mask has one bit set,
and the identifiers of one range have different bits. -/

namespace Sys2Proof.Machine

/-! ### Admission (R234) -/

/-- Nothing refuses a gate command on peripheral `id` of `k`. -/
structure GateAdmitted (k : GateInst) (id : PeriphId) (s : State) : Prop where
  ready       : s.seq.busy = false
  constrained : s.seq ≠ .raw
  inRange     : s.params.gates.contains k id = true

/-- The identifier is tested first, in `RAW` too. -/
theorem gateCommand_of_outOfRange {k : GateInst} {id : PeriphId} {s : State} (hb : s.seq.busy = false)
    (hout : s.params.gates.contains k id = false) (act : State → State) :
    whenTaken s (admitGate k id · act) = refuse .refIllegalCommand s := by
  rw [whenTaken_of_ready hb]
  simpa [hout] using admitGate_cases k id s act

theorem gateCommand_of_raw {k : GateInst} {id : PeriphId} {s : State} (hin : s.params.gates.contains k id = true)
    (hs : s.seq = .raw) (act : State → State) :
    whenTaken s (admitGate k id · act) = refuse .refNotConstrained s := by
  rw [whenTaken_of_ready (by rw [hs]; rfl)]
  simpa [hin, hs] using admitGate_cases k id s act

theorem GateAdmitted.gateCommand {k : GateInst} {id : PeriphId} {s : State} (h : GateAdmitted k id s)
    (act : State → State) : whenTaken s (admitGate k id · act) = act s := by
  rw [whenTaken_of_ready h.ready]
  simpa [h.inRange, h.constrained] using admitGate_cases k id s act

/-! ### The commands (R231 to R233) -/

theorem GateAdmitted.exec_gateEnable {k : GateInst} {id : PeriphId} {s : State} (h : GateAdmitted k id s) :
    exec (.gateEnable k id) s = .next (respond .ok 0 (hwWrite (.gateEn k (gateMask s.params.gates k id)) s)) :=
  congrArg Host.Outcome.next (h.gateCommand _)

theorem GateAdmitted.exec_gateDisable {k : GateInst} {id : PeriphId} {s : State} (h : GateAdmitted k id s) :
    exec (.gateDisable k id) s = .next (respond .ok 0 (hwWrite (.gateDis k (gateMask s.params.gates k id)) s)) :=
  congrArg Host.Outcome.next (h.gateCommand _)

theorem GateAdmitted.exec_gateStatus {k : GateInst} {id : PeriphId} {s : State} (h : GateAdmitted k id s) :
    exec (.gateStatus k id) s =
      .next (respond .ok (gateStatusBit s.params.gates k id (s.hw.gateSt k)) (hwReadGateSt k s)) :=
  congrArg Host.Outcome.next (h.gateCommand _)

/-- Settles O45: the admitted command is one write (`GateAdmitted.exec_gateEnable`), whose effect is that of
`HwSide.onWrite` for `k`. -/
theorem gateEnableSetsItsBit : Obligations.GateEnableSetsItsBit := by
  rintro k id s m hb hraw hin rfl
  have hadm : GateAdmitted k id s := ⟨hb, hraw, hin⟩
  rw [hadm.exec_gateEnable]
  cases k with
  | low => rfl
  | high => rfl

/-- Settles O46: as `gateEnableSetsItsBit`, with the write to the disable register. -/
theorem gateDisableClearsItsBit : Obligations.GateDisableClearsItsBit := by
  rintro k id s m hb hraw hin rfl
  have hadm : GateAdmitted k id s := ⟨hb, hraw, hin⟩
  rw [hadm.exec_gateDisable]
  cases k with
  | low => rfl
  | high => rfl

/-- Settles O47: the admitted command is one read (`GateAdmitted.exec_gateStatus`). -/
theorem gateStatusAnswersItsBit : Obligations.GateStatusAnswersItsBit := by
  rintro k id s v hb hraw hin rfl
  have hadm : GateAdmitted k id s := ⟨hb, hraw, hin⟩
  rw [hadm.exec_gateStatus]
  cases k with
  | low => rfl
  | high => rfl

/-! ### What a gate command touches (R234) -/

/-- Between `s` and `t` only gate status words, the trace and the responses differ. -/
structure TouchesOnlyGates (s t : State) : Prop where
  state : t = { s with hw := t.hw, trace := t.trace, responses := t.responses }
  hw    : t.hw = { s.hw with gateSt0 := t.hw.gateSt0, gateSt1 := t.hw.gateSt1 }

theorem gateEn_touchesOnlyGates (k : GateInst) (m : GateWord) (s : State) :
    TouchesOnlyGates s (respond .ok 0 (hwWrite (.gateEn k m) s)) := by
  cases k <;> exact ⟨rfl, rfl⟩

theorem gateDis_touchesOnlyGates (k : GateInst) (m : GateWord) (s : State) :
    TouchesOnlyGates s (respond .ok 0 (hwWrite (.gateDis k m) s)) := by
  cases k <;> exact ⟨rfl, rfl⟩

/-- Each gate command is its own action behind the common admission. -/
theorem exec_of_gateCommand {k : GateInst} {id : PeriphId} {i : Instr}
    (hi : i ∈ [Instr.gateEnable k id, .gateDisable k id, .gateStatus k id]) :
    ∃ act, (∀ s, exec i s = .next (whenTaken s (admitGate k id · act))) ∧ ∀ s, TouchesOnlyGates s (act s) := by
  simp only [List.mem_cons, List.not_mem_nil, or_false] at hi
  rcases hi with rfl | rfl | rfl
  · exact ⟨_, fun _ => rfl, fun s => gateEn_touchesOnlyGates k _ s⟩
  · exact ⟨_, fun _ => rfl, fun s => gateDis_touchesOnlyGates k _ s⟩
  · exact ⟨_, fun _ => rfl, fun _ => ⟨rfl, rfl⟩⟩

/-- Settles O48: the two refusals of the admission (`gateCommand_of_outOfRange`, `gateCommand_of_raw`) do not look at the
action. -/
theorem gateCommandsAreRefused : Obligations.GateCommandsAreRefused := by
  intro k id s i hi hb
  obtain ⟨act, hexec, _⟩ := exec_of_gateCommand hi
  rw [hexec]
  exact ⟨fun hout => congrArg Host.Outcome.next (gateCommand_of_outOfRange hb hout act),
    fun hin hs => congrArg Host.Outcome.next (gateCommand_of_raw hin hs act)⟩

/-- A word that is not taken touches nothing, and a refusal only responds. -/
theorem gateCommand_touchesOnlyGates {k : GateInst} {id : PeriphId} {s : State} {act : State → State}
    (h : TouchesOnlyGates s (act s)) : TouchesOnlyGates s (whenTaken s (admitGate k id · act)) := by
  rcases whenTaken_cases s (admitGate k id · act) with ⟨_, he⟩ | ⟨_, he⟩ <;> rw [he]
  · exact ⟨rfl, rfl⟩
  · rcases admitGate_cases k id s act with ⟨_, he⟩ | ⟨_, _, he⟩ | ⟨_, _, he⟩ <;> rw [he]
    · exact ⟨rfl, rfl⟩
    · exact ⟨rfl, rfl⟩
    · exact h

/-! ### What the other operations keep (R234) -/

/-- The gate status words are the same in both states. -/
structure SameGates (s t : State) : Prop where
  low  : t.hw.gateSt0 = s.hw.gateSt0
  high : t.hw.gateSt1 = s.hw.gateSt1

theorem SameGates.of_hw {s t : State} (h : t.hw = s.hw) : SameGates s t :=
  ⟨congrArg HwSide.gateSt0 h, congrArg HwSide.gateSt1 h⟩

theorem SameGates.trans {s t u : State} (h : SameGates s t) (h' : SameGates t u) : SameGates s u :=
  ⟨h'.low.trans h.low, h'.high.trans h.high⟩

theorem whenTaken_hw {s : State} {act : State → State} (h : (act s).hw = s.hw) : (whenTaken s act).hw = s.hw := by
  rcases whenTaken_cases s act with ⟨_, he⟩ | ⟨_, he⟩ <;> rw [he]
  exact h

theorem admitGate_hw {k : GateInst} {id : PeriphId} {s : State} {act : State → State} (h : (act s).hw = s.hw) :
    (admitGate k id s act).hw = s.hw := by
  rcases admitGate_cases k id s act with ⟨_, he⟩ | ⟨_, _, he⟩ | ⟨_, _, he⟩ <;> rw [he]
  · rfl
  · rfl
  · exact h

theorem execConstrain_hw {s t : State} (h : execConstrain s = .next t) : t.hw = s.hw := by
  obtain rfl := Host.Outcome.next.inj h
  refine whenTaken_hw ?_
  split <;> rfl

theorem execWithSource_hw {src : BitVec 2} {s t : State} (h : execWithSource src s = .next t) : t.hw = s.hw := by
  obtain rfl := Host.Outcome.next.inj h
  refine whenTaken_hw ?_
  split
  · rfl
  · exact (inBuilding_silent ⟨rfl, rfl⟩).hw

theorem accessor_hw {value : RecRegs → BitVec 32} {s t : State}
    (h : (.next (whenTaken s (answerFrozen value)) : Host.Outcome State Fault Refusal) = .next t) : t.hw = s.hw := by
  obtain rfl := Host.Outcome.next.inj h
  exact whenTaken_hw (answerFrozen_silent value s).hw

/-- Only GATE_ENABLE and GATE_DISABLE are writes: every other command leaves the clock hardware as it is. -/
theorem exec_hw {i : Instr} {s t : State} (hi : ∀ k id, i ∉ [Instr.gateEnable k id, .gateDisable k id])
    (h : exec i s = .next t) : t.hw = s.hw := by
  cases i with
  | constrain => exact execConstrain_hw h
  | withTargetFrequency freq =>
    obtain rfl := Host.Outcome.next.inj h
    exact whenTaken_hw (inBuilding_silent ⟨rfl, rfl⟩).hw
  | withSource src => exact execWithSource_hw h
  | freeze =>
    obtain rfl := Host.Outcome.next.inj h
    exact whenTaken_hw (inBuilding_silent ⟨rfl, rfl⟩).hw
  | gateEnable k id => exact absurd (by simp) (hi k id)
  | gateDisable k id => exact absurd (by simp) (hi k id)
  | gateStatus k id =>
    obtain rfl := Host.Outcome.next.inj h
    exact whenTaken_hw (admitGate_hw rfl)
  | clockSource => exact accessor_hw h
  | slowClockFreq => exact accessor_hw h
  | mainOscFreq => exact accessor_hw h
  | pllRatio => exact accessor_hw h
  | masterClockFreq => exact accessor_hw h
  | appliedPrescaler => exact accessor_hw h

/-- What follows the read of a wait writes nothing (spec/42_commit_sequencer.md R178). -/
theorem afterPoll_sameGates {site : Seq} {b : Bit} {done : State → State} {s : State} (h : Silent s (done s)) :
    SameGates s (afterPoll site b done s) :=
  .of_hw (afterPoll_silent h).hw

/-- The writes of a FREEZE go to `PLL_CTRL`, CSS and PRES (spec/42_commit_sequencer.md R172, R174, R176). -/
theorem sequencerStep_sameGates {s : State} (hb : s.seq.busy = true) : SameGates s (sequencerStep s) := by
  rcases sequencerStep_cases hb with
    ⟨_, he⟩ | ⟨_, he⟩ | ⟨_, he⟩ | ⟨_, he⟩ | ⟨_, he⟩ | ⟨_, he⟩ | ⟨_, he⟩ <;> rw [he]
  · rcases stepEval_cases s with ⟨_, _, he⟩ | ⟨_, _, he⟩ <;> rw [he] <;> exact ⟨rfl, rfl⟩
  · exact ⟨rfl, rfl⟩
  · exact .trans (t := hwReadPllLock s) ⟨rfl, rfl⟩ (afterPoll_sameGates ⟨rfl, rfl⟩)
  · exact ⟨rfl, rfl⟩
  · exact .trans (t := hwReadMckRdy s) ⟨rfl, rfl⟩ (afterPoll_sameGates ⟨rfl, rfl⟩)
  · exact ⟨rfl, rfl⟩
  · exact .trans (t := hwReadMckRdy s) ⟨rfl, rfl⟩ (afterPoll_sameGates ⟨rfl, rfl⟩)

/-- A step of a busy block, a reset included, keeps the gate status words. -/
theorem step_sameGates_of_busy {s t : State} (hb : s.seq.busy = true) (h : step s = .next t) : SameGates s t := by
  cases hr : resetAsserted s with
  | true =>
    obtain rfl : blockReset (sampleReset s) = t := by simpa [step, hr] using h
    exact ⟨rfl, rfl⟩
  | false =>
    obtain rfl := eq_sequencerStep_of_step hr hb h
    exact .trans (t := sampleReset s) ⟨rfl, rfl⟩ (sequencerStep_sameGates hb)

/-- Settles O49: a gate command touches gate status words only (`gateCommand_touchesOnlyGates`), and the other commands
(`exec_hw`) and the sequencer (`step_sameGates_of_busy`) keep them. -/
theorem gatesAreIndependentOfTheClock : Obligations.GatesAreIndependentOfTheClock := by
  refine ⟨fun k id i s t hi h => ?_, fun i s t hi h => ?_, fun s t hb h => ?_⟩
  · obtain ⟨act, hexec, hact⟩ := exec_of_gateCommand hi
    obtain rfl := Host.Outcome.next.inj ((hexec s).symm.trans h)
    obtain ⟨hstate, hhw⟩ := gateCommand_touchesOnlyGates (k := k) (id := id) (hact s)
    exact ⟨hstate, hhw⟩
  · obtain ⟨hlow, hhigh⟩ := SameGates.of_hw (exec_hw hi h)
    exact ⟨hlow, hhigh⟩
  · obtain ⟨hlow, hhigh⟩ := step_sameGates_of_busy hb h
    exact ⟨hlow, hhigh⟩

/-! ### The bits of a range (R230) -/

/-- The width of a range is a matter of the ranges alone, whatever the other parameters are. -/
theorem gateBit_lt_of_rangesWf {g : GateRanges} (hg : g.wf = true) {k : GateInst} {id : PeriphId}
    (hin : g.contains k id = true) : gateBit g k id < 32 :=
  have hwf : ({ Config.defaultParams with gates := g } : Params).wf = true := by
    have hdefault : Config.defaultParams.wf = true := by decide
    simp only [Params.wf, Bool.and_eq_true] at hdefault ⊢
    obtain ⟨hother, _⟩ := hdefault
    exact ⟨hother, hg⟩
  gateBit_lt hwf hin

/-- Two identifiers of one range have different bits. -/
theorem gateBit_inj {g : GateRanges} {k : GateInst} {id id' : PeriphId} (hin : g.contains k id = true)
    (hin' : g.contains k id' = true) : gateBit g k id' = gateBit g k id ↔ id' = id := by
  simp only [GateRanges.contains, Bool.and_eq_true, decide_eq_true_eq, BitVec.le_def] at hin hin'
  simp only [gateBit, gateBase, ← BitVec.toNat_inj]
  omega

theorem gateMask_getLsbD {g : GateRanges} {k : GateInst} {id : PeriphId} (hlt : gateBit g k id < 32) (n : Nat) :
    (gateMask g k id).getLsbD n = decide (n = gateBit g k id) := by
  unfold gateMask
  rw [← BitVec.twoPow_eq, BitVec.getLsbD_twoPow]
  simp [hlt, eq_comm]

section OneRange

variable {g : GateRanges} {k : GateInst} {id id' : PeriphId}

/-- Of the peripherals of the range, the mask of `id` holds the bit of `id` alone. -/
theorem gateMask_getLsbD_gateBit (hg : g.wf = true) (hin : g.contains k id = true) (hin' : g.contains k id' = true) :
    (gateMask g k id).getLsbD (gateBit g k id') = decide (id' = id) := by
  rw [gateMask_getLsbD (gateBit_lt_of_rangesWf hg hin)]
  exact decide_eq_decide.mpr (gateBit_inj hin hin')

theorem gateStatusBit_or_gateMask (hg : g.wf = true) (hin : g.contains k id = true) (hin' : g.contains k id' = true)
    (v : GateWord) :
    gateStatusBit g k id' (v ||| gateMask g k id) = if id' = id then 1 else gateStatusBit g k id' v := by
  simp only [gateStatusBit, BitVec.getLsbD_or, gateMask_getLsbD_gateBit hg hin hin']
  by_cases hid : id' = id <;> simp [hid]

theorem gateStatusBit_and_not_gateMask (hg : g.wf = true) (hin : g.contains k id = true)
    (hin' : g.contains k id' = true) (v : GateWord) :
    gateStatusBit g k id' (v &&& ~~~gateMask g k id) = if id' = id then 0 else gateStatusBit g k id' v := by
  simp only [gateStatusBit, BitVec.getLsbD_and, BitVec.getLsbD_not, gateMask_getLsbD_gateBit hg hin hin',
    gateBit_lt_of_rangesWf hg hin']
  by_cases hid : id' = id <;> simp [hid]

end OneRange

/-! ### The status after a write (R231 to R233, R235) -/

@[simp] theorem gateSt_setGateSt_same (h : HwSide) (k : GateInst) (v : GateWord) : (h.setGateSt k v).gateSt k = v := by
  cases k <;> rfl

/-- `low` and `high` have a status word each. -/
theorem gateSt_setGateSt_of_ne {k k' : GateInst} (hk : k' ≠ k) (h : HwSide) (v : GateWord) :
    (h.setGateSt k v).gateSt k' = h.gateSt k' := by
  cases k with
  | low =>
    cases k' with
    | low => exact absurd rfl hk
    | high => rfl
  | high =>
    cases k' with
    | low => rfl
    | high => exact absurd rfl hk

section AfterWrite

variable {g : GateRanges} {k k' : GateInst} {id id' : PeriphId}

theorem gateStatusBit_after_gateEn (hg : g.wf = true) (hin : g.contains k id = true)
    (hin' : g.contains k' id' = true) (h : HwSide) :
    gateStatusBit g k' id' ((h.onWrite (.gateEn k (gateMask g k id))).gateSt k') =
      if k' = k ∧ id' = id then 1 else gateStatusBit g k' id' (h.gateSt k') := by
  unfold HwSide.onWrite
  by_cases hk : k' = k
  · subst hk
    simp only [gateSt_setGateSt_same, gateStatusBit_or_gateMask hg hin hin', true_and]
  · simp only [gateSt_setGateSt_of_ne hk, hk, false_and, if_false]

theorem gateStatusBit_after_gateDis (hg : g.wf = true) (hin : g.contains k id = true)
    (hin' : g.contains k' id' = true) (h : HwSide) :
    gateStatusBit g k' id' ((h.onWrite (.gateDis k (gateMask g k id))).gateSt k') =
      if k' = k ∧ id' = id then 0 else gateStatusBit g k' id' (h.gateSt k') := by
  unfold HwSide.onWrite
  by_cases hk : k' = k
  · subst hk
    simp only [gateSt_setGateSt_same, gateStatusBit_and_not_gateMask hg hin hin', true_and]
  · simp only [gateSt_setGateSt_of_ne hk, hk, false_and, if_false]

/-- A completed write changes nothing that admission looks at, so GATE_STATUS answers from the written hardware. -/
theorem GateAdmitted.gateStatus_after_write {s : State} (h : GateAdmitted k' id' s) (w : HwWrite) :
    ∃ u, exec (.gateStatus k' id') (respond .ok 0 (hwWrite w s)) = .next u ∧
      u.responses = (respond .ok 0 (hwWrite w s)).responses ++
        [⟨.ok, gateStatusBit s.params.gates k' id' ((s.hw.onWrite w).gateSt k')⟩] := by
  have hafter : GateAdmitted k' id' (respond .ok 0 (hwWrite w s)) := ⟨h.ready, h.constrained, h.inRange⟩
  exact ⟨_, hafter.exec_gateStatus, rfl⟩

end AfterWrite

/-- Settles O50: the status read answers a bit of the written word (`GateAdmitted.gateStatus_after_write`), and the mask
changes the bit of its own peripheral only. -/
theorem gateWritesActOnOnePeripheral : Obligations.GateWritesActOnOnePeripheral := by
  intro k k' id id' s t hg hb hraw hin hin'
  have hadm : GateAdmitted k id s := ⟨hb, hraw, hin⟩
  have hadm' : GateAdmitted k' id' s := ⟨hb, hraw, hin'⟩
  refine ⟨fun h => ?_, fun h => ?_⟩
  · obtain rfl := Host.Outcome.next.inj (hadm.exec_gateEnable.symm.trans h)
    rw [← gateStatusBit_after_gateEn hg hin hin' s.hw]
    exact hadm'.gateStatus_after_write _
  · obtain rfl := Host.Outcome.next.inj (hadm.exec_gateDisable.symm.trans h)
    rw [← gateStatusBit_after_gateDis hg hin hin' s.hw]
    exact hadm'.gateStatus_after_write _

end Sys2Proof.Machine

/-! # Exceptions: answers and refusals (spec/60_exceptions.md R250 to R253)

A ready block answers every command but an admitted FREEZE with one status, which the command and `seq` decide
(`admissionStatus`), and a status other than OK comes with no other effect (`Answers`). The steps that respond without a
command are those that end a FREEZE, with OK or the status of a fault, and the refusal of a reserved word. -/

namespace Sys2Proof.Machine

/-! ### Every step answers (R250) -/

theorem exec_answers_next (i : Instr) (s : State) : ∃ t, exec i s = .next t := by
  obtain ⟨_, h⟩ := exec_eq_whenTaken i
  exact ⟨_, h s⟩

/-- A ready block without reset waits for a word, refuses a reserved one, or runs a command. -/
theorem step_answers_next_of_ready {s : State} (hr : resetAsserted s = false) (hb : s.seq.busy = false) :
    ∃ t, step s = .next t := by
  cases hw : presentedWord s with
  | none => exact ⟨sampleReset s, by simp only [step, hr, hb, hw, Bool.false_eq_true, if_false]⟩
  | some w =>
    cases hd : fetchDecode s w with
    | error _ => exact ⟨_, step_of_rejectedWord hr hb hw hd⟩
    | ok i =>
      rw [step_of_presentedWord hr hb hw hd]
      exact exec_answers_next i _

/-- Settles O9: a reset, a step of the sequencer and a step of a ready block (`step_answers_next_of_ready`) each answer. -/
theorem everyStepAnswersANextState : Obligations.EveryStepAnswersANextState := by
  refine ⟨fun s => ?_, exec_answers_next⟩
  cases hr : resetAsserted s with
  | true => exact ⟨blockReset (sampleReset s), by simp only [step, hr, if_true]⟩
  | false =>
    cases hb : s.seq.busy with
    | true => exact ⟨_, step_of_sequencer hr hb⟩
    | false => exact step_answers_next_of_ready hr hb

/-! ### The table of R253 -/

/-- The row of the builder's commands. -/
def builderStatus : Seq → Status
  | .raw => .refNotConstrained
  | .building => .ok
  | _ => .refBuilderConsumed

/-- The row of the six accessors. -/
def accessorStatus : Seq → Status
  | .raw => .refNotConstrained
  | .frozen => .ok
  | _ => .refNoRecord

/-- The row of the gate commands. -/
def gateCommandStatus : Seq → Status
  | .raw => .refNotConstrained
  | _ => .ok

/-- The row of CONSTRAIN. -/
def constrainStatus : Seq → Status
  | .raw => .ok
  | _ => .refAlreadyConstrained

/-- The status with which a state that takes words answers a command; a FREEZE in `BUILDING` answers later. -/
def admissionStatus : Instr → Seq → Status
  | .constrain => constrainStatus
  | .withTargetFrequency _ | .withSource _ | .freeze => builderStatus
  | .gateEnable _ _ | .gateDisable _ _ | .gateStatus _ _ => gateCommandStatus
  | .clockSource | .slowClockFreq | .mainOscFreq | .pllRatio | .masterClockFreq | .appliedPrescaler => accessorStatus

/-- The state in which an answered command leaves the block: only CONSTRAIN moves it. -/
def seqAfter (i : Instr) (q : Seq) : Seq := if i = .constrain ∧ q = .raw then .building else q

/-- From `s` to `t` there is one response, of status `c`, and `seq` becomes `q`; a status other than OK comes alone. -/
structure Answers (c : Status) (q : Seq) (s t : State) : Prop where
  responds : ∃ d, t.responses = s.responses ++ [⟨c, d⟩]
  seq      : t.seq = q
  refuses  : c ≠ .ok → t = refuse c s

theorem refuse_answers (c : Status) (s : State) : Answers c s.seq s (refuse c s) := ⟨⟨0, rfl⟩, rfl, fun _ => rfl⟩

/-- An OK is held to nothing but its response and `seq`. -/
theorem Answers.of_ok {q : Seq} {d : BitVec 32} {s t : State} (hresp : t.responses = s.responses ++ [⟨.ok, d⟩])
    (hseq : t.seq = q) : Answers .ok q s t :=
  ⟨⟨d, hresp⟩, hseq, fun hok => absurd rfl hok⟩

section Rows

variable {s : State} {act : State → State}

theorem builderCommand_answers (hb : s.seq.busy = false) (hact : s.seq = .building → Answers .ok s.seq s (act s)) :
    Answers (builderStatus s.seq) s.seq s (whenTaken s (inBuilding · act)) := by
  rw [whenTaken_of_ready hb]
  rcases inBuilding_cases s act with ⟨hs, he⟩ | ⟨hs, he⟩ | ⟨hraw, hbuilding, he⟩ <;> rw [he]
  · have hrow : builderStatus s.seq = .refNotConstrained := by rw [hs]; rfl
    exact hrow ▸ refuse_answers _ s
  · have hrow : builderStatus s.seq = .ok := by rw [hs]; rfl
    exact hrow ▸ hact hs
  · have hrow : builderStatus s.seq = .refBuilderConsumed := by simp [builderStatus]
    exact hrow ▸ refuse_answers _ s

theorem accessor_answers (hb : s.seq.busy = false) (value : RecRegs → BitVec 32) :
    Answers (accessorStatus s.seq) s.seq s (whenTaken s (answerFrozen value)) := by
  rw [whenTaken_of_ready hb]
  rcases answerFrozen_cases value s with ⟨hs, he⟩ | ⟨hs, he⟩ | ⟨hraw, hfrozen, he⟩ <;> rw [he]
  · have hrow : accessorStatus s.seq = .refNotConstrained := by rw [hs]; rfl
    exact hrow ▸ refuse_answers _ s
  · have hrow : accessorStatus s.seq = .ok := by rw [hs]; rfl
    have hanswer : Answers .ok s.seq s (respond .ok (value s.record) s) := .of_ok rfl rfl
    exact hrow ▸ hanswer
  · have hrow : accessorStatus s.seq = .refNoRecord := by simp [accessorStatus]
    exact hrow ▸ refuse_answers _ s

theorem gateCommand_answers (hb : s.seq.busy = false) {k : GateInst} {id : PeriphId}
    (hin : s.params.gates.contains k id = true) (hact : Answers .ok s.seq s (act s)) :
    Answers (gateCommandStatus s.seq) s.seq s (whenTaken s (admitGate k id · act)) := by
  rw [whenTaken_of_ready hb]
  rcases admitGate_cases k id s act with ⟨hout, _⟩ | ⟨_, hs, he⟩ | ⟨_, hraw, he⟩
  · simp [hin] at hout
  · have hrow : gateCommandStatus s.seq = .refNotConstrained := by rw [hs]; rfl
    rw [he]
    exact hrow ▸ refuse_answers _ s
  · have hrow : gateCommandStatus s.seq = .ok := by simp [gateCommandStatus]
    rw [he]
    exact hrow ▸ hact

end Rows

theorem exec_constrain_answers {s t : State} (hb : s.seq.busy = false) (h : exec .constrain s = .next t) :
    Answers (constrainStatus s.seq) (seqAfter .constrain s.seq) s t := by
  by_cases hs : s.seq = .raw
  · obtain rfl := Host.Outcome.next.inj ((exec_constrain_of_raw hs).symm.trans h)
    rw [hs]
    exact .of_ok rfl rfl
  · obtain rfl := Host.Outcome.next.inj ((exec_constrain_of_ne_raw hb hs).symm.trans h)
    have hrow : constrainStatus s.seq = .refAlreadyConstrained := by simp [constrainStatus]
    have hseq : seqAfter .constrain s.seq = s.seq := by simp [seqAfter, hs]
    rw [hrow, hseq]
    exact refuse_answers _ s

/-- A ready block answers every well-formed command but an admitted FREEZE by the table. -/
theorem exec_answers {i : Instr} {s t : State} (hwf : WellFormed s.params.gates i = true) (hb : s.seq.busy = false)
    (hfreeze : ¬ (i = .freeze ∧ s.seq = .building)) (h : exec i s = .next t) :
    Answers (admissionStatus i s.seq) (seqAfter i s.seq) s t := by
  cases i with
  | constrain => exact exec_constrain_answers hb h
  | withTargetFrequency freq =>
    obtain rfl := Host.Outcome.next.inj h
    exact builderCommand_answers hb fun _ => .of_ok rfl rfl
  | withSource src =>
    rw [exec_withSource_of_ne_reserved (of_decide_eq_true hwf)] at h
    obtain rfl := Host.Outcome.next.inj h
    exact builderCommand_answers hb fun _ => .of_ok rfl rfl
  | freeze =>
    obtain rfl := Host.Outcome.next.inj h
    exact builderCommand_answers hb fun hs => absurd ⟨rfl, hs⟩ hfreeze
  | gateEnable k id =>
    obtain rfl := Host.Outcome.next.inj h
    exact gateCommand_answers hb hwf (.of_ok rfl rfl)
  | gateDisable k id =>
    obtain rfl := Host.Outcome.next.inj h
    exact gateCommand_answers hb hwf (.of_ok rfl rfl)
  | gateStatus k id =>
    obtain rfl := Host.Outcome.next.inj h
    exact gateCommand_answers hb hwf (.of_ok rfl rfl)
  | clockSource | slowClockFreq | mainOscFreq | pllRatio | masterClockFreq | appliedPrescaler =>
    obtain rfl := Host.Outcome.next.inj h
    exact accessor_answers hb _

/-- An admitted FREEZE is not answered yet (spec/42_commit_sequencer.md R170). -/
theorem eq_of_exec_freeze {s t : State} (hs : s.seq = .building) (h : exec .freeze s = .next t) :
    t = { s with seq := .sEval } := by
  obtain ⟨hadmit, _⟩ := freezeIsAdmittedOnlyWhileBuilding s
  exact Host.Outcome.next.inj (h.symm.trans (hadmit hs))

/-- Settles O51: a busy block takes no command (`exec_of_busy`), FREEZE in `BUILDING` enters S_EVAL, and every other
command is answered by its row of the table (`exec_answers`). -/
theorem admissionTable : Obligations.AdmissionTable := by
  intro i s t hwf h
  refine ⟨fun hb => Host.Outcome.next.inj (h.symm.trans (exec_of_busy hb i)), fun hb => ?_⟩
  by_cases hfreeze : i = .freeze ∧ s.seq = .building
  · obtain ⟨rfl, hs⟩ := hfreeze
    obtain rfl := eq_of_exec_freeze hs h
    exact .inl ⟨rfl, hs, rfl, rfl⟩
  · obtain ⟨⟨d, hresp⟩, hseq, _⟩ := exec_answers hwf hb hfreeze h
    refine .inr ⟨hfreeze, _, hresp, ?_, hseq⟩
    generalize s.seq = q at hfreeze ⊢
    cases i with
    | freeze =>
      cases q with
      | building => exact absurd ⟨rfl, rfl⟩ hfreeze
      | _ => rfl
    | _ => cases q <;> rfl

/-! ### A refusal comes alone (R252) -/

/-- No FREEZE ends with a refusal: the codes of OK and of the faults are below 8 (spec/30_encoding.md R98). -/
theorem FreezeResponse.code_lt {r : Response} (h : FreezeResponse r) : r.status.code.toNat < 8 := by
  rcases h with rfl | ⟨f, rfl⟩
  · decide
  · cases f <;> decide

/-- A command whose response is a refusal does nothing else. -/
theorem exec_refuses {i : Instr} {s t : State} {r : Response} (hwf : WellFormed s.params.gates i = true)
    (hb : s.seq.busy = false) (h : exec i s = .next t) (hresp : t.responses = s.responses ++ [r])
    (hcode : 8 ≤ r.status.code.toNat) : t = refuse r.status s := by
  have hfreeze : ¬ (i = .freeze ∧ s.seq = .building) := by
    rintro ⟨rfl, hs⟩
    obtain rfl := eq_of_exec_freeze hs h
    simp at hresp
  obtain ⟨⟨d, hanswer⟩, _, hrefuses⟩ := exec_answers hwf hb hfreeze h
  obtain rfl : r = ⟨admissionStatus i s.seq, d⟩ := by simpa [hanswer, eq_comm] using hresp
  refine hrefuses fun hok => ?_
  simp [hok, Status.code] at hcode

/-- A step that responds with a refusal has taken the word and refused it. -/
theorem step_refuses {s t : State} {r : Response} (h : step s = .next t) (hresp : t.responses = s.responses ++ [r])
    (hcode : 8 ≤ r.status.code.toNat) : ∃ c, t = refuse c (takeWord (sampleReset s)) := by
  rcases step_cases h with
    ⟨_, rfl⟩ | ⟨_, hb, rfl⟩ | ⟨_, _, _, rfl⟩ | ⟨_, _, _, _, _, _, _, rfl⟩ | ⟨_, hb, w, _, i, _, hd, he⟩
  case inl => simp at hresp
  case inr.inl =>
    rcases sequencerStep_endsWithResponse (s := sampleReset s) hb with ⟨_, hsame⟩ | ⟨_, r', hr', hfreeze⟩
    · simp [hsame] at hresp
    · obtain rfl : r' = r := by simpa [hr'] using hresp
      have hlt := hfreeze.code_lt
      omega
  case inr.inr.inl => simp at hresp
  case inr.inr.inr.inl => exact ⟨_, rfl⟩
  case inr.inr.inr.inr =>
    obtain ⟨hwf, _⟩ := decodedWordIsItsEncoding _ w i hd
    exact ⟨_, exec_refuses (s := takeWord (sampleReset s)) hwf hb he hresp hcode⟩

/-- Settles O52, by `step_refuses`. -/
theorem refusalsChangeNothing : Obligations.RefusalsChangeNothing := by
  intro s t r h hresp hcode
  obtain ⟨c, rfl⟩ := step_refuses h hresp hcode
  obtain rfl : ⟨c, 0⟩ = r := by simpa [refuse] using hresp
  exact ⟨rfl, rfl⟩

end Sys2Proof.Machine

/-! # Exceptions: faults (spec/60_exceptions.md R255, R256, R265)

A step enters `FAULT` in one way: the state that detects the fault makes its one read and raises it (`step_enters_fault`).
Once there, a run without reset keeps what the fault has latched. A configuration fault is raised by S_EVAL, the first state
of a FREEZE, before any other access. -/

namespace Sys2Proof.Machine

/-! ### Fault entry (R255) -/

/-- `u` is `s` with one read made and recorded, and the reset input sampled. -/
def ReadOnce (s u : State) : Prop :=
  ∃ r, u = { s with
    resetIn := s.resetIn.tail, oscIn := u.oscIn, lockIn := u.lockIn, rdyIn := u.rdyIn, draws := u.draws,
    trace := s.trace ++ [.rd r] }

theorem hwReadOscClass_readOnce (s : State) : ReadOnce s (hwReadOscClass (sampleReset s)) := ⟨_, rfl⟩

theorem hwReadPllLock_readOnce (s : State) : ReadOnce s (hwReadPllLock (sampleReset s)) := ⟨_, rfl⟩

theorem hwReadMckRdy_readOnce (s : State) : ReadOnce s (hwReadMckRdy (sampleReset s)) := ⟨_, rfl⟩

/-- S_EVAL and the three waits are the states that detect a fault (spec/42_commit_sequencer.md R181). -/
theorem transition_to_fault {q : Seq} (h : transition q .fault = true) (hq : q ≠ .fault) : q = .sEval ∨ q.Waits := by
  cases q with
  | sEval => exact .inl rfl
  | sWaitLock => exact .inr (.inl rfl)
  | sWaitRdy1 => exact .inr (.inr (.inl rfl))
  | sWaitRdy2 => exact .inr (.inr (.inr rfl))
  | fault => exact absurd rfl hq
  | _ => cases h

/-- A poll leads to `FAULT` by the timeout only. -/
theorem afterPoll_eq_raiseFault {site : Seq} {b : Bit} {done : State → State} {s : State}
    (h : (afterPoll site b done s).seq = .fault) (hdone : (done s).seq ≠ .fault) (hs : s.seq ≠ .fault) :
    afterPoll site b done s = raiseFault .hardwareTimeout site.code s := by
  rcases afterPoll_cases site b done s with ⟨_, he⟩ | ⟨_, _, he⟩ | ⟨_, _, he⟩ | ⟨_, _, he⟩ <;> rw [he] at h
  · exact absurd h hdone
  · exact he
  · exact absurd h hs
  · exact absurd h hs

/-- S_EVAL leads to `FAULT` by the encoder's fault only. -/
theorem stepEval_eq_raiseFault {s : State} (h : (stepEval s).seq = .fault) :
    ∃ f, stepEval s = raiseFault f Seq.sEval.code (hwReadOscClass s) := by
  rcases stepEval_cases s with ⟨f, _, he⟩ | ⟨_, _, he⟩
  · exact ⟨f, he⟩
  · rw [he] at h
    by_cases hsrc : s.bSrc = Config.cssPll <;> simp [hsrc] at h

/-- The step that enters `FAULT` reads once and raises the fault at the state it was in. -/
theorem step_enters_fault {s t : State} (h : step s = .next t) (ht : t.seq = .fault) (hs : s.seq ≠ .fault) :
    ∃ f u, ReadOnce s u ∧ t = raiseFault f s.seq.code u := by
  have hr : resetAsserted s = false := by
    by_contra hreset
    obtain rfl : blockReset (sampleReset s) = t := by simpa [step, hreset] using h
    cases ht
  rcases transition_to_fault (ht ▸ step_transition hr h) hs with hq | hq | hq | hq <;>
    obtain rfl := eq_sequencerStepAt_of_step hr hq (by rfl) h <;> rw [hq]
  · obtain ⟨f, he⟩ := stepEval_eq_raiseFault ht
    exact ⟨f, _, hwReadOscClass_readOnce s, he⟩
  · exact ⟨_, _, hwReadPllLock_readOnce s, afterPoll_eq_raiseFault ht nofun hs⟩
  · exact ⟨_, _, hwReadMckRdy_readOnce s, afterPoll_eq_raiseFault ht nofun hs⟩
  · exact ⟨_, _, hwReadMckRdy_readOnce s, afterPoll_eq_raiseFault ht nofun hs⟩

/-- Settles O53: all that is read off is what one read and `raiseFault` leave alone (`step_enters_fault`). -/
theorem faultEntryIsPrecise : Obligations.FaultEntryIsPrecise := by
  intro s t h ht hs
  obtain ⟨f, u, ⟨r, hu⟩, rfl⟩ := step_enters_fault h ht hs
  rw [hu]
  exact ⟨f, rfl, rfl, rfl, rfl, rfl, rfl, rfl, rfl, rfl, rfl, rfl, rfl, r, rfl⟩

/-! ### `FAULT` until reset (R256) -/

/-- What a fault has latched is the same in both states. -/
structure SameFaultRecord (s t : State) : Prop where
  err       : t.err = s.err
  faultSite : t.faultSite = s.faultSite
  progress  : t.progress = s.progress

theorem SameFaultRecord.trans {s t u : State} (h : SameFaultRecord s t) (h' : SameFaultRecord t u) :
    SameFaultRecord s u :=
  ⟨h'.err.trans h.err, h'.faultSite.trans h.faultSite, h'.progress.trans h.progress⟩

theorem exec_sameFaultRecord {i : Instr} {s t : State} (h : exec i s = .next t) : SameFaultRecord s t := by
  obtain ⟨hframe, _⟩ := exec_frame h
  rw [hframe]
  exact ⟨rfl, rfl, rfl⟩

/-- Without a reset only the sequencer writes `err`, `fault_site` and `progress`. -/
theorem step_sameFaultRecord_of_ready {s t : State} (hr : resetAsserted s = false) (hb : s.seq.busy = false)
    (h : step s = .next t) : SameFaultRecord s t := by
  rcases step_cases h with
    ⟨hreset, _⟩ | ⟨_, hbusy, _⟩ | ⟨_, _, _, rfl⟩ | ⟨_, _, _, _, _, _, _, rfl⟩ | ⟨_, _, _, _, _, _, _, he⟩
  case inl => simp [hr] at hreset
  case inr.inl => simp [hb] at hbusy
  case inr.inr.inl => exact ⟨rfl, rfl, rfl⟩
  case inr.inr.inr.inl => exact ⟨rfl, rfl, rfl⟩
  case inr.inr.inr.inr => exact .trans (t := takeWord (sampleReset s)) ⟨rfl, rfl, rfl⟩ (exec_sameFaultRecord he)

theorem step_seq_of_fault {s t : State} (hr : resetAsserted s = false) (hs : s.seq = .fault)
    (h : step s = .next t) : t.seq = .fault := by
  have htrans := step_transition hr h
  rw [hs] at htrans
  exact eq_of_beq htrans

/-- Settles O54: no transition leaves `FAULT` (`step_seq_of_fault`), and a block there is not busy
(`step_sameFaultRecord_of_ready`). -/
theorem faultIsSticky : Obligations.FaultIsSticky := by
  intro n s t hr hs hrun
  have hkept : NoReset t ∧ t.seq = .fault ∧ SameFaultRecord s t := by
    refine hrun.invariant (P := fun u => NoReset u ∧ u.seq = .fault ∧ SameFaultRecord s u) ?_ ⟨hr, hs, rfl, rfl, rfl⟩
    rintro u v ⟨hr, hu, hrec⟩ huv
    exact ⟨hr.of_step huv, step_seq_of_fault hr.head hu huv,
      hrec.trans (step_sameFaultRecord_of_ready hr.head (not_busy_of_consumed (.inr hu)) huv)⟩
  obtain ⟨_, ht, herr, hsite, hprog⟩ := hkept
  exact ⟨ht, herr, hsite, hprog⟩

/-! ### A configuration fault (R265) -/

theorem RunsTo.noReset {n : Nat} {s t : State} (h : RunsTo n s t) (hr : NoReset s) : NoReset t :=
  h.invariant (P := fun u => NoReset u) (fun _ _ hu hstep => hu.of_step hstep) hr

/-- S_EVAL is the first state of a FREEZE: no step of the sequencer leads to it (spec/42_commit_sequencer.md R181). -/
theorem sequencerStep_seq_ne_sEval {s : State} (hb : s.seq.busy = true) : (sequencerStep s).seq ≠ .sEval := by
  intro heval
  have htrans := sequencerStep_transition hb
  rw [heval] at htrans
  cases hq : s.seq with
  | building => simp [hq, Seq.busy] at hb
  | _ => simp [hq, transition] at htrans

/-- A FREEZE that is in S_EVAL has only just been admitted: it has made no access. -/
theorem silent_of_run_to_sEval {n : Nat} {s u : State} {w : CmdWord} {rest : List CmdWord} (hs : s.seq = .building)
    (hr : NoReset s) (hc : s.cmdIn = w :: rest) (hd : decode s.params.gates w = .ok .freeze) (hrun : RunsTo n s u)
    (hu : u.seq = .sEval) : Silent s u := by
  have hadmit := step_of_freezeWord hs hr.head hc hd
  cases n with
  | zero =>
    rw [runsTo_zero.mp hrun, hs] at hu
    cases hu
  | succ n =>
    refine ((runsTo_succ hadmit).mp hrun).busy_invariant (P := fun v => v.seq = .sEval → Silent s v) ?_
      (hr.of_step hadmit) ⟨nofun, nofun⟩ (fun _ => ⟨rfl, rfl⟩) (by rw [hu]; rfl) hu
    exact fun v hb _ heval => absurd heval (sequencerStep_seq_ne_sEval (s := sampleReset v) hb)

theorem Seq.eq_sEval_of_code {q : Seq} (h : q.code = 2) : q = .sEval := by
  cases q with
  | sEval => rfl
  | _ => exact absurd h (by decide)

/-- In a coherent `FAULT`, a code other than the timeout's is a configuration fault, recorded by S_EVAL (R251). -/
theorem Coherent.configurationFault {s : State} (h : Coherent s) (hs : s.seq = .fault)
    (herr : s.err = 1 ∨ s.err = 2 ∨ s.err = 4) : s.faultSite = 2 ∧ s.progress = 0 := by
  have hne : s.err ≠ 3 := by rcases herr with he | he | he <;> rw [he] <;> decide
  rcases h.faultRecord hs with ⟨_, hsite, hprog⟩ | ⟨htimeout, _⟩ | ⟨htimeout, _⟩ | ⟨htimeout, _⟩
  · exact ⟨hsite, hprog⟩
  all_goals exact absurd htimeout hne

/-- Settles O55: the fault's record names S_EVAL as its site (`Coherent.configurationFault`), so the step that raised it was
taken in S_EVAL (`step_enters_fault`), before which the FREEZE made no access (`silent_of_run_to_sEval`). -/
theorem configurationFaultLeavesHardware : Obligations.ConfigurationFaultLeavesHardware := by
  intro n s u t w rest h hs hr hc hd hrun hu hstep ht herr
  have hcoherent : Coherent t := everyStepKeepsCoherence u t (hrun.invariant everyStepKeepsCoherence h) hstep
  obtain ⟨hsite, hprog⟩ := hcoherent.configurationFault ht herr
  have hufault : u.seq ≠ .fault := by intro hf; simp [hf, Seq.busy] at hu
  obtain ⟨_, _, _, hraised⟩ := step_enters_fault hstep ht hufault
  have heval : u.seq = .sEval := Seq.eq_sEval_of_code (by rw [← hsite, hraised]; rfl)
  obtain ⟨htrace, hhw⟩ := silent_of_run_to_sEval hs hr hc hd hrun heval
  obtain rfl := eq_sequencerStepAt_of_step (hrun.noReset hr).head heval rfl hstep
  obtain ⟨_, hfault⟩ := stepEval_eq_raiseFault (s := sampleReset u) ht
  refine ⟨hprog, hsite, ?_, oscClassAnswer (sampleReset u), ?_⟩
  · exact (congrArg State.hw hfault).trans hhw
  · rw [← htrace]
    exact congrArg State.trace hfault

end Sys2Proof.Machine

/-! # Exceptions: the hang (spec/60_exceptions.md R264)

Without a `WAIT_LIMIT` a poll that reads 0 leaves the block in its wait with nothing but the access recorded
(`StillWaiting`), and a feed that answers 0 for ever is the same feed after a read; so the same poll comes again
(`hang_of_poll`). -/

namespace Sys2Proof.Machine

/-- From `s` to `t` the block has made the access `e` `n` times, and done nothing else that the host could see. -/
structure StillWaiting (n : Nat) (e : HwEvent) (s t : State) : Prop where
  seq       : t.seq = s.seq
  progress  : t.progress = s.progress
  responses : t.responses = s.responses
  cmdIn     : t.cmdIn = s.cmdIn
  trace     : t.trace = s.trace ++ List.replicate n e

theorem StillWaiting.refl (e : HwEvent) (s : State) : StillWaiting 0 e s s :=
  ⟨rfl, rfl, rfl, rfl, (List.append_nil _).symm⟩

theorem StillWaiting.succ {n : Nat} {e : HwEvent} {s t u : State} (h : StillWaiting 1 e s t)
    (h' : StillWaiting n e t u) : StillWaiting (n + 1) e s u where
  seq := h'.seq.trans h.seq
  progress := h'.progress.trans h.progress
  responses := h'.responses.trans h.responses
  cmdIn := h'.cmdIn.trans h.cmdIn
  trace := by rw [h'.trace, h.trace, List.append_assoc]; rfl

/-- A poll after which the same poll comes again is made as often as one likes. -/
theorem hang_of_poll {P : State → Prop} {e : HwEvent}
    (hpoll : ∀ u, P u → ∃ v, step u = .next v ∧ P v ∧ StillWaiting 1 e u v) (n : Nat) {s : State} (hs : P s) :
    ∃ t, RunsTo n s t ∧ StillWaiting n e s t := by
  induction n generalizing s with
  | zero => exact ⟨s, runsTo_zero.mpr rfl, .refl e s⟩
  | succ n ih =>
    obtain ⟨u, hstep, hu, hone⟩ := hpoll s hs
    obtain ⟨t, hrun, hrest⟩ := ih hu
    exact ⟨t, (runsTo_succ hstep).mpr hrun, hone.succ hrest⟩

/-- No reset and no limit will end a wait. -/
def Unbounded (s : State) : Prop := NoReset s ∧ s.params.waitLimit = none

theorem Unbounded.of_step {s t : State} (h : Unbounded s) (hs : step s = .next t) : Unbounded t := by
  obtain ⟨hr, hl⟩ := h
  exact ⟨hr.of_step hs, (step_sameInputs hs).params ▸ hl⟩

/-- The lock wait, with `PLL_LOCK` reading 0 for ever. -/
structure StuckOnLock (s : State) : Prop where
  unbounded : Unbounded s
  seq       : s.seq = .sWaitLock
  feed      : s.lockIn = ⟨[], some 0⟩

/-- A ready wait, with `MCK_RDY` reading 0 for ever. -/
structure StuckOnReady (s : State) : Prop where
  unbounded : Unbounded s
  seq       : s.seq = .sWaitRdy1 ∨ s.seq = .sWaitRdy2
  feed      : s.rdyIn = ⟨[], some 0⟩

theorem StuckOnLock.poll {s : State} (h : StuckOnLock s) :
    ∃ t, step s = .next t ∧ StuckOnLock t ∧ StillWaiting 1 (.rd (.pllLock 0)) s t := by
  have hanswer : pllLockAnswer s = 0 := by simp [pllLockAnswer, h.feed]
  obtain ⟨hr, hl⟩ := h.unbounded
  obtain ⟨_, _, hforever, _⟩ := lockPollStep s _ hr.head h.seq rfl
  have hstep := hforever (by rw [hanswer]; decide) hl
  exact ⟨_, hstep, ⟨h.unbounded.of_step hstep, h.seq, by simp [h.feed, Feed.tail]⟩, rfl, rfl, rfl, rfl, by simp [hanswer]⟩

theorem StuckOnReady.poll {s : State} (h : StuckOnReady s) :
    ∃ t, step s = .next t ∧ StuckOnReady t ∧ StillWaiting 1 (.rd (.mckRdy 0)) s t := by
  have hanswer : mckRdyAnswer s = 0 := by simp [mckRdyAnswer, h.feed]
  have hzero : mckRdyAnswer s ≠ 1#1 := by rw [hanswer]; decide
  obtain ⟨hr, hl⟩ := h.unbounded
  have hstep : step s = .next { s with
      resetIn := s.resetIn.tail, rdyIn := s.rdyIn.tail, draws := s.draws + 1,
      trace := s.trace ++ [.rd (.mckRdy (mckRdyAnswer s))] } := by
    rcases h.seq with hs | hs
    · obtain ⟨_, _, hforever, _⟩ := firstReadyPollStep s _ hr.head hs rfl
      exact hforever hzero hl
    · obtain ⟨_, _, hforever, _⟩ := secondReadyPollStep s _ hr.head hs rfl
      exact hforever hzero hl
  exact ⟨_, hstep, ⟨h.unbounded.of_step hstep, h.seq, by simp [h.feed, Feed.tail]⟩, rfl, rfl, rfl, rfl, by simp [hanswer]⟩

/-- A block that still waits is not ready for a command. -/
theorem StillWaiting.cmdReady {n : Nat} {e : HwEvent} {s t : State} (h : StillWaiting n e s t) (hs : s.seq.busy = true) :
    t.cmdReady = false := by
  simp [State.cmdReady, h.seq, hs]

/-- Settles O38: each of the three waits polls again (`StuckOnReady.poll`, `StuckOnLock.poll`), so a run of any length stays
there (`hang_of_poll`). -/
theorem unboundedWaitHangs : Obligations.UnboundedWaitHangs := by
  intro n s hr hl
  refine ⟨fun hs hfeed => ?_, fun hs hfeed => ?_⟩
  · have hstuck : StuckOnReady s := ⟨⟨hr, hl⟩, hs, hfeed⟩
    obtain ⟨t, hrun, hwait⟩ := hang_of_poll (fun _ => StuckOnReady.poll) n hstuck
    have hready := hwait.cmdReady (by rcases hs with hs | hs <;> rw [hs] <;> rfl)
    exact ⟨t, hrun, hwait.seq, hwait.progress, hwait.responses, hwait.cmdIn, hready, hwait.trace⟩
  · have hstuck : StuckOnLock s := ⟨⟨hr, hl⟩, hs, hfeed⟩
    obtain ⟨t, hrun, hwait⟩ := hang_of_poll (fun _ => StuckOnLock.poll) n hstuck
    have hready := hwait.cmdReady (by rw [hs]; rfl)
    exact ⟨t, hrun, hwait.seq, hwait.progress, hwait.responses, hwait.cmdIn, hready, hwait.trace⟩

end Sys2Proof.Machine

/-! # Reset (spec/70_reset_and_hazards.md R290, R291)

In `RAW`, the state that a reset leaves, the table of R253 refuses every command but CONSTRAIN, and a refusal comes alone
(`exec_answers`). -/

namespace Sys2Proof.Machine

/-- A step with reset asserted only resets the block (log 6). -/
theorem step_of_reset {s : State} (hr : resetAsserted s = true) : step s = .next (blockReset (sampleReset s)) := by
  simp only [step, hr, if_true]

/-- The column of `RAW` in the table of R253. -/
theorem admissionStatus_raw {i : Instr} (hi : i ≠ .constrain) : admissionStatus i .raw = .refNotConstrained := by
  cases i with
  | constrain => exact absurd rfl hi
  | _ => rfl

theorem eq_refuse_of_exec_of_raw {i : Instr} {s t : State} (hwf : WellFormed s.params.gates i = true) (hs : s.seq = .raw)
    (hi : i ≠ .constrain) (h : exec i s = .next t) : t = refuse .refNotConstrained s := by
  have hready : s.seq.busy = false := by rw [hs]; rfl
  have hfreeze : ¬ (i = .freeze ∧ s.seq = .building) := by simp [hs]
  have hrow : admissionStatus i s.seq = .refNotConstrained := by rw [hs, admissionStatus_raw hi]
  have hanswers := exec_answers hwf hready hfreeze h
  rw [hrow] at hanswers
  exact hanswers.refuses nofun

/-- Settles O57: the registers and what is outside the block are read off `blockReset`; the commands are those of `RAW`
(`exec_constrain_of_raw`, `eq_refuse_of_exec_of_raw`). -/
theorem resetClearsOnlyTheBlock : Obligations.ResetClearsOnlyTheBlock := by
  intro s hr
  have hraw : (blockReset (sampleReset s)).seq = .raw := blockReset_seq _
  refine ⟨blockReset (sampleReset s), step_of_reset hr, hraw, rfl, rfl, rfl, rfl, rfl, rfl, rfl, rfl, rfl, rfl, rfl, ?_, ?_⟩
  · exact ⟨_, exec_constrain_of_raw hraw, rfl⟩
  · exact fun i u hwf hi h => eq_refuse_of_exec_of_raw hwf hraw hi h

end Sys2Proof.Machine
